-- ==== Sys2Proof/Word.lean ====
section
/-! DEFINITION. Word.lean: the words the part works in and the bank of four like things. -/
namespace Sys2Proof

/-- One byte as software and the supervisor see it. -/
abbrev Byte := BitVec 8

/-- A 32-bit byte address (00_scope.md, Conventions). -/
abbrev Addr := BitVec 32

/-- Number of an agent port, 0 to 3. -/
abbrev PortIx := Fin 4

/-- Number of a hold slot or a tally slot, 0 to 3. -/
abbrev SlotIx := Fin 4

/-- Number of an agent, 0 to 15, formed as 4 × port + tag (R2). -/
abbrev Agent := Fin 16

/-- Four like things numbered 0 to 3: ports, slots, the agents of one port. -/
structure Four (α : Type) where
  e0 : α
  e1 : α
  e2 : α
  e3 : α
deriving DecidableEq, Repr

namespace Four

/-- The thing numbered `i`. -/
def get {α : Type} (f : Four α) (i : Fin 4) : α :=
  match i with
  | 0 => f.e0
  | 1 => f.e1
  | 2 => f.e2
  | 3 => f.e3

/-- The bank with the thing numbered `i` replaced. -/
def set {α : Type} (f : Four α) (i : Fin 4) (x : α) : Four α :=
  match i with
  | 0 => { f with e0 := x }
  | 1 => { f with e1 := x }
  | 2 => { f with e2 := x }
  | 3 => { f with e3 := x }

/-- The bank with every thing changed alike. -/
def map {α : Type} (f : Four α) (g : α → α) : Four α :=
  { e0 := g f.e0, e1 := g f.e1, e2 := g f.e2, e3 := g f.e3 }

/-- Four copies of one thing. -/
def all {α : Type} (x : α) : Four α :=
  { e0 := x, e1 := x, e2 := x, e3 := x }

/-- The things in number order. -/
def toList {α : Type} (f : Four α) : List α := [f.e0, f.e1, f.e2, f.e3]

end Four

end Sys2Proof
end

