-- ==== Sys2Proof/Config.lean ====
section
/-! DEFINITION. Config.lean: the sizes and codes the manual fixes for the part. The manual leaves no value of an effect open, so no
constant here is a free value. -/
namespace Sys2Proof.Config

/-- Requests a port holds between acceptance and response (R103). -/
def windowSize : Nat := 8

/-- Entries of the reservation table (R21). -/
def tableSize : Nat := 24

/-- Table entries of one agent (R21). -/
def agentEntries : Nat := 4

/-- Entries of a loss list (R35). -/
def lossSize : Nat := 4

/-- Places of the memory port (R117). -/
def places : Nat := 16

/-- Records of the capture ring (R149). -/
def ringSize : Nat := 256

/-- Value at which a commits or refusals counter stops (R60). -/
def counterTop : Nat := 0xFFFF

/-- Value at which a refusal streak stops (R56). -/
def streakTop : Nat := 15

/-- Post-trigger count of a CENTRE capture (R155). -/
def centreCount : Nat := 128

/-- Post-trigger count of a TRAIL capture (R156). -/
def trailCount : Nat := 255

/-- Live memory timeout after power-on, in microseconds (R124, R129). -/
def powerOnTimeout : Nat := 1000

/-- Signature of a policy block (R131). -/
def signature : Nat := 0x574C3432

/-- Bytes of the policy block window (R17). -/
def windowBytes : Nat := 512

/-- Bytes of the header and of one descriptor (section 7.3). -/
def headerBytes : Nat := 24

/-- Granule numbers lie below this (section 1.2). -/
def granules : Nat := 0x100000

/-- Bytes of a granule (section 1.2). -/
def granuleBytes : Nat := 4096

/-- The policy base PBASE selects (R17, R128). -/
def policyBase (pbase : Fin 4) : Addr :=
  match pbase with
  | 0 => 0x0000FE00#32
  | 1 => 0x0007FE00#32
  | 2 => 0x001FFE00#32
  | 3 => 0xFFFFFE00#32

end Sys2Proof.Config
end

