-- ==== Sys2Proof/Syntax.lean ====
section
/-! DEFINITION. Syntax.lean: the commands of the part, one constructor for each row of opcode_table.json. -/
namespace Sys2Proof

/-- Direction of an access (R1, field kind). -/
inductive Dir where
  | read
  | write
deriving DecidableEq, Repr

/-- The four sizes a single can name (R1). -/
inductive Size where
  | s1
  | s2
  | s4
  | s8
deriving DecidableEq, Repr

/-- Extent of an access (R1): a single of a size, or a burst of `1 + extra` beats of 8 bytes. -/
inductive Length where
  | single (size : Size)
  | burst (extra : Fin 8)
deriving DecidableEq, Repr

/-- A request as a master offers it (R1). Byte `k` of the write data stands in bits `8k` to `8k + 7` of `data`; only the bytes of
the span count, and a READ's `data` is ignored. -/
structure Req where
  dir : Dir
  tag : Fin 4
  addr : Addr
  len : Length
  data : BitVec 512
deriving DecidableEq, Repr

/-- The sixteen argument bytes of CAPTURE_SETUP, field by field, least significant byte first (11.3, R178). -/
structure SetupArgs where
  kindMask : BitVec 16
  regionMask : BitVec 24
  agentMask : BitVec 16
  triggerKind : Byte
  matchFlags : Byte
  agentMatch : Byte
  cellMatch : Addr
  count : Byte
  position : Byte
deriving DecidableEq, Repr

/-- The commands, in the order of opcode_table.json. Each is one whole, indivisible step of the part
(95_what_each_step_holds.md). -/
inductive Instr where
  /-- POWER_ON_RESET (R129): PORESET_n is deasserted with the straps at `pbase` and `ownp`, the PRST_n lines whose bit of `prst` is
  1 asserted (R109), and CS_n low when `csLow` (R163). -/
  | powerOnReset (pbase ownp : Fin 4) (prst : BitVec 4) (csLow : Bool)
  /-- PORT_RESET (R108): PRST_n of `port` is asserted. -/
  | portReset (port : PortIx)
  /-- PRST_N_DEASSERTED (R109): PRST_n of `port` is deasserted. -/
  | prstDeasserted (port : PortIx)
  /-- ACCEPTANCE (R103): the master of `port` offers `req`. -/
  | acceptance (port : PortIx) (req : Req)
  /-- ADMISSION (R114): the admission arbiter makes one grant, if a head request is admissible. -/
  | admission
  /-- WRITE_HALF_ISSUE (R91): the write half that has waited longest is issued. -/
  | writeHalfIssue
  /-- LOADER_READ_ISSUE (R135): the loader read asked for first is issued. -/
  | loaderReadIssue
  /-- MEMORY_RESPONSE (R121): memory answers the transaction of tag `tag`, OKAY or ERROR. Byte `k` read stands in bits `8k` to
  `8k + 7` of `data`; only the bytes of the span count, and only of an OKAY read. -/
  | memoryResponse (tag : BitVec 5) (okay : Bool) (data : BitVec 512)
  /-- MEMORY_TIMEOUT (R125): the memory timeout runs out on the oldest outstanding entry. -/
  | memoryTimeout
  /-- FETCHING (R141): DRAINING passes to FETCHING. -/
  | fetching
  /-- RESPONSE_DEPARTURE (R106): the master of `port` takes the READY response at the head. -/
  | responseDeparture (port : PortIx)
  /-- TIME_BASE_TICK (R146). -/
  | timeBaseTick
  /-- LEASE_EXPIRY (R31): the lease of the entry of `agent` on `cell` runs out. -/
  | leaseExpiry (agent : Agent) (cell : Addr)
  /-- ENTITLEMENT_EXPIRY (R75): the entitlement of slot `slot` runs out. -/
  | entitlementExpiry (slot : SlotIx)
  /-- HOLD_LIMIT_EXPIRY (R79): the hold limit of slot `slot` runs out. -/
  | holdLimitExpiry (slot : SlotIx)
  /-- STATUS (R166). -/
  | status
  /-- CAUSES (R172), at its point of effect. -/
  | causes
  /-- CAUSES_COMPLETION (R172): the CAUSES frame in progress completes. -/
  | causesCompletion
  /-- SETMASK (R173) with its argument byte. -/
  | setmask (mask : Byte)
  /-- AGENT (R168) with its two argument bytes. -/
  | agent (number clear : Byte)
  /-- AGENT_CLEAR (R60): the AGENT frame in progress, sent with clear option 1, completes. -/
  | agentClear
  /-- RESERVATIONS (R167). -/
  | reservations
  /-- HOLDS (R167). -/
  | holds
  /-- REGION (R168) with its argument byte. -/
  | region (index : Byte)
  /-- CAPTURE_SETUP (R159) with its sixteen argument bytes. -/
  | captureSetup (args : SetupArgs)
  /-- CAPTURE_ARM (R157). -/
  | captureArm
  /-- CAPTURE_STOP (R158). -/
  | captureStop
  /-- CAPTURE_READ (R160) with its start byte and its two-byte count. -/
  | captureRead (start : Byte) (count : BitVec 16)
  /-- MONITOR_RESET (R170). -/
  | monitorReset
  /-- HALT (R170). -/
  | halt
  /-- RESUME (R170). -/
  | resume
  /-- BADCMD (R164): the command byte `byte`, which names no command, arrives. -/
  | badcmd (byte : Byte)
  /-- FRAME_CUT_SHORT (R163): CS_n rises before the frame's point of effect. -/
  | frameCutShort
  /-- FRAME_CUT_SHORT_AFTER_POINT_OF_EFFECT (R163): CS_n rises after the point of effect and before completion. -/
  | frameCutShortAfterPointOfEffect
deriving DecidableEq, Repr

end Sys2Proof
end

