-- ==== Sys2Proof/Machine/Operands.lean ====
section
/-! DEFINITION. Operands.lean: what the part derives from a command's operands: byte order, agents, cells, granules, spans, and the
fields of the link's argument bytes. -/
namespace Sys2Proof

/-! ### Byte order (R178, R89): the least significant byte stands first. -/

/-- The `n` low bytes of `v`, least significant first. -/
def leBytes : Nat → Nat → List Byte
  | 0, _ => []
  | n + 1, v => BitVec.ofNat 8 v :: leBytes n (v / 256)

/-- The unsigned integer whose bytes, least significant first, are given. -/
def leNat : List Byte → Nat
  | [] => 0
  | b :: bs => b.toNat + 256 * leNat bs

/-- The unsigned integer of `n` bytes at offset `off` of a block of bytes. -/
def leField (bytes : List Byte) (off n : Nat) : Nat := leNat ((bytes.drop off).take n)

/-- Bytes 0 to `n - 1` of a data path of 64 bytes. -/
def laneBytes (n : Nat) (d : BitVec 512) : List Byte := leBytes n d.toNat

/-! ### Agents (R2) -/

/-- The agent of tag `t` on port `p`. -/
def agentOf (p : PortIx) (t : Fin 4) : Agent := ⟨4 * p.val + t.val, by omega⟩

/-- The port of an agent. -/
def portOf (a : Agent) : PortIx := ⟨a.val / 4, by omega⟩

/-- The tag of an agent on its port. -/
def tagOf (a : Agent) : Fin 4 := ⟨a.val % 4, by omega⟩

/-! ### Cells, granules and spans (section 1.2, R3) -/

/-- The cell address of a byte address: its low three bits zero. -/
def cellOf (a : Addr) : Addr := a &&& 0xFFFFFFF8#32

/-- The granule number of a byte address. -/
def granuleOf (a : Nat) : Nat := a / Config.granuleBytes

/-- Bytes of a single. -/
def Size.bytes : Size → Nat
  | .s1 => 1
  | .s2 => 2
  | .s4 => 4
  | .s8 => 8

/-- Bytes of the span. -/
def Length.bytes : Length → Nat
  | .single s => s.bytes
  | .burst extra => 8 * (extra.val + 1)

/-- The cell count: 1 for a single, the beats for a burst. -/
def Length.cells : Length → Nat
  | .single _ => 1
  | .burst extra => extra.val + 1

/-- Is the access a burst? -/
def Length.isBurst : Length → Bool
  | .single _ => false
  | .burst _ => true

/-- First and last byte address of the span. The address space does not wrap (R8), so these are numbers, not words. -/
def Req.firstByte (r : Req) : Nat := r.addr.toNat

@[inherit_doc Req.firstByte]
def Req.lastByte (r : Req) : Nat := r.addr.toNat + r.len.bytes - 1

/-- The write data the request carries (R1): none for a READ, the bytes of the span for a WRITE. -/
def Req.payload (r : Req) : List Byte :=
  match r.dir with
  | .read => []
  | .write => laneBytes r.len.bytes r.data

/-! ### Alignment (R8) -/

/-- Does the request break the alignment rule of R8? -/
def Req.misaligned (r : Req) : Bool :=
  match r.len with
  | .single s => r.addr.toNat % s.bytes != 0
  | .burst extra =>
      r.addr.toNat % 8 != 0 || extra.val == 0 || decide (64 < r.addr.toNat % 64 + 8 * (extra.val + 1))

/-! ### Command bytes (11.3) -/

/-- The command bytes that name a command. -/
def commandBytes : List Byte :=
  [0x01#8, 0x02#8, 0x03#8, 0x04#8, 0x05#8, 0x06#8, 0x07#8,
   0x10#8, 0x11#8, 0x12#8, 0x13#8, 0x20#8, 0x21#8, 0x22#8]

/-- Does the byte name a command? -/
def namesCommand (b : Byte) : Bool := commandBytes.contains b

end Sys2Proof
end

