-- ==== Sys2Proof/WellFormed.lean ====
section
/-! DEFINITION. WellFormed.lean: the checks a command passes before it is a command of the part. The types of the operands already
hold every range the manual gives (four ports, four sizes, 1 to 8 beats, sixteen agents); what is left is checked here. -/
namespace Sys2Proof

/-- A READ carries no write data, and a WRITE only the bytes of its span (R1). -/
def Req.wellFormed (r : Req) : Bool :=
  match r.dir with
  | .read => r.data == 0#512
  | .write => decide (r.data.toNat < 2 ^ (8 * r.len.bytes))

/-- A cell address has its low three bits zero (section 1.2). -/
def isCell (a : Addr) : Bool := cellOf a == a

/-- The checks of each command:
* ACCEPTANCE: the request is well formed (R1);
* MEMORY_RESPONSE: only an OKAY response carries bytes read (R120);
* LEASE_EXPIRY: the entry named stands on a cell (R20);
* BADCMD: the byte names no command (R164). -/
def Instr.wellFormed : Instr → Bool
  | .powerOnReset _ _ _ _ => true
  | .portReset _ => true
  | .prstDeasserted _ => true
  | .acceptance _ req => req.wellFormed
  | .admission => true
  | .writeHalfIssue => true
  | .loaderReadIssue => true
  | .memoryResponse _ okay data => okay || data == 0#512
  | .memoryTimeout => true
  | .fetching => true
  | .responseDeparture _ => true
  | .timeBaseTick => true
  | .leaseExpiry _ cell => isCell cell
  | .entitlementExpiry _ => true
  | .holdLimitExpiry _ => true
  | .status => true
  | .causes => true
  | .causesCompletion => true
  | .setmask _ => true
  | .agent _ _ => true
  | .agentClear => true
  | .reservations => true
  | .holds => true
  | .region _ => true
  | .captureSetup _ => true
  | .captureArm => true
  | .captureStop => true
  | .captureRead _ _ => true
  | .monitorReset => true
  | .halt => true
  | .resume => true
  | .badcmd byte => !namesCommand byte
  | .frameCutShort => true
  | .frameCutShortAfterPointOfEffect => true

end Sys2Proof
end

