-- ==== Sys2Proof/Decode.lean ====
section
/-! DEFINITION. Decode.lean: words of the opcode table, and the frames of the maintenance link.

No row of opcode_table.json gives bits, so no word spells a command by the table (assumption 5). The link commands have byte codes of
their own (11.3): `decodeFrame` reads the bytes the supervisor sends on MOSI in a frame, `encodeFrame` writes those up to the point of
effect. -/
namespace Sys2Proof

/-- The command that a word of `nbits` bits spells by the table's bits: none, since no row gives bits (assumption 5). -/
def decodeTableWord (_nbits _w : Nat) : Option Instr := none

/-- The fields of the sixteen argument bytes of CAPTURE_SETUP, and what follows them ignored (11.3). -/
def decodeSetup : List Byte → Option SetupArgs
  | k0 :: k1 :: r0 :: r1 :: r2 :: a0 :: a1 :: trig :: flags :: ag :: c0 :: c1 :: c2 :: c3 :: cnt :: pos :: _ =>
      some
        { kindMask := k1 ++ k0
          regionMask := r2 ++ r1 ++ r0
          agentMask := a1 ++ a0
          triggerKind := trig
          matchFlags := flags
          agentMatch := ag
          cellMatch := c3 ++ c2 ++ c1 ++ c0
          count := cnt
          position := pos }
  | _ => none

/-- The command of a frame, from the bytes the supervisor sends on MOSI from the fall of CS_n on (R162, 11.3): the command byte and its
argument bytes. What MOSI carries after them, while the status byte, the data bytes and any further byte are clocked, is ignored, a second
command byte too. A frame with no byte at all, or one that has not carried all its argument bytes, has no point of effect: none. -/
def decodeFrame : List Byte → Option Instr
  | [] => none
  | cmd :: args =>
    if cmd == 0x01#8 then some .status
    else if cmd == 0x02#8 then some .causes
    else if cmd == 0x03#8 then (match args with | m :: _ => some (.setmask m) | _ => none)
    else if cmd == 0x04#8 then (match args with | n :: c :: _ => some (.agent n c) | _ => none)
    else if cmd == 0x05#8 then some .reservations
    else if cmd == 0x06#8 then some .holds
    else if cmd == 0x07#8 then (match args with | i :: _ => some (.region i) | _ => none)
    else if cmd == 0x10#8 then (decodeSetup args).map .captureSetup
    else if cmd == 0x11#8 then some .captureArm
    else if cmd == 0x12#8 then some .captureStop
    else if cmd == 0x13#8 then (match args with | i :: c0 :: c1 :: _ => some (.captureRead i (c1 ++ c0)) | _ => none)
    else if cmd == 0x20#8 then some .monitorReset
    else if cmd == 0x21#8 then some .halt
    else if cmd == 0x22#8 then some .resume
    else some (.badcmd cmd)

/-- The bytes of CAPTURE_SETUP's arguments, least significant byte of each field first (R178). -/
def encodeSetup (a : SetupArgs) : List Byte :=
  leBytes 2 a.kindMask.toNat ++ leBytes 3 a.regionMask.toNat ++ leBytes 2 a.agentMask.toNat
    ++ [a.triggerKind, a.matchFlags, a.agentMatch] ++ leBytes 4 a.cellMatch.toNat ++ [a.count, a.position]

/-- The bytes of a frame up to its point of effect, for the commands that a frame carries; none for the events that are no frame. -/
def encodeFrame : Instr → Option (List Byte)
  | .status => some [0x01#8]
  | .causes => some [0x02#8]
  | .setmask m => some [0x03#8, m]
  | .agent n c => some [0x04#8, n, c]
  | .reservations => some [0x05#8]
  | .holds => some [0x06#8]
  | .region i => some [0x07#8, i]
  | .captureSetup a => some (0x10#8 :: encodeSetup a)
  | .captureArm => some [0x11#8]
  | .captureStop => some [0x12#8]
  | .captureRead i c => some (0x13#8 :: i :: leBytes 2 c.toNat)
  | .monitorReset => some [0x20#8]
  | .halt => some [0x21#8]
  | .resume => some [0x22#8]
  | .badcmd b => some [b]
  | .powerOnReset _ _ _ _ => none
  | .portReset _ => none
  | .prstDeasserted _ => none
  | .acceptance _ _ => none
  | .admission => none
  | .writeHalfIssue => none
  | .loaderReadIssue => none
  | .memoryResponse _ _ _ => none
  | .memoryTimeout => none
  | .fetching => none
  | .responseDeparture _ => none
  | .timeBaseTick => none
  | .leaseExpiry _ _ => none
  | .entitlementExpiry _ => none
  | .holdLimitExpiry _ => none
  | .causesCompletion => none
  | .agentClear => none
  | .frameCutShort => none
  | .frameCutShortAfterPointOfEffect => none

end Sys2Proof
end

