-- ==== Sys2Proof/Machine/State.lean ====
section
/-! DEFINITION. State.lean: everything the manual lets the part remember, block by block (00_scope.md, Block overview), as plain data;
the reasons a step can stop; and the part right after power-on reset. -/
namespace Sys2Proof.Machine

/-! ### Outcomes that stop the machine -/

/-- Faults of the machine. There is none: the manual gives every event an effect, and what it calls FAULT is the status of a response
(R4), held in `State`. -/
inductive Fault : Type
deriving DecidableEq, Repr

/-- Refusals of the model. -/
inductive Refusal : Type where
  /-- Raised by `exec` for a command that has no meaning yet, named by its row's mnemonic; safe, since nothing can be proved of a
  state that is not reached. No arm raises it. -/
  | notModelled (mnemonic : String)
deriving DecidableEq, Repr

/-! ### Requests, responses and the agent ports (chapters 1 and 6) -/

/-- The causes of R4. Each belongs to one status, which `Cause.status` computes. -/
inductive Cause where
  | none
  | noReservation
  | broken
  | expired
  | evicted
  | displaced
  | held
  | fenced
  | dropped
  | misaligned
  | straddle
  | burstInGuard
  | narrowTally
  | memError
  | memTimeout
  | saturated
deriving DecidableEq, Repr

/-- The statuses of R4. -/
inductive Status where
  | okay
  | refused
  | fault
deriving DecidableEq, Repr

/-- A response (R4): its cause, which fixes its status, and the read data of an OKAY read. -/
structure Response where
  cause : Cause
  data : List Byte
deriving DecidableEq, Repr

/-- An accepted request with the epoch recorded at acceptance (R1, R103). `id` is the model's own: the acceptance number on its port,
by which other blocks refer to the request's order-list entry (assumption 6). -/
structure Accepted where
  id : Nat
  req : Req
  epoch : BitVec 16
deriving DecidableEq, Repr

/-- State of an order-list entry (R105). -/
inductive EntryState where
  | pending
  | ready (response : Response)
  | discard (finished : Bool)
deriving DecidableEq, Repr

/-- An order-list entry (R102, R105). -/
structure OrderEntry where
  acc : Accepted
  state : EntryState
deriving DecidableEq, Repr

/-- An agent port front end (R102). `nextId` and `taken` are the model's own (assumptions 6 and 7). -/
structure Port where
  /-- accepted, unadmitted requests, oldest first (R104) -/
  queue : List Accepted
  /-- accepted requests still awaiting their responses, oldest first (R105) -/
  order : List OrderEntry
  /-- the port epoch (R111) -/
  epoch : BitVec 16
  /-- PRST_n of the port is asserted (R108, R109) -/
  resetAsserted : Bool
  /-- acceptance number of the next request -/
  nextId : Nat
  /-- responses the master has taken since power-on, oldest first -/
  taken : List Response
deriving DecidableEq, Repr

/-- A region index as it is reported: one of the live table, or DEFAULT (R7). -/
inductive RegionIx where
  | region (index : Nat)
  | default
deriving DecidableEq, Repr

/-- The classifier's result for a request (R12). -/
inductive Disposition where
  | forward
  | guardedRead
  | guardedWrite
  | tallyRead
  | tallyWrite
  | answer (cause : Cause)
deriving DecidableEq, Repr

/-! ### The reservation monitor (chapters 2 to 4) -/

/-- A reservation table entry (R20). -/
structure TableEntry where
  agent : Agent
  cell : Addr
  region : Nat
  lease : Nat
deriving DecidableEq, Repr

/-- A loss-list entry (R35). -/
structure LossEntry where
  cell : Addr
  cause : Cause
deriving DecidableEq, Repr

/-- State of an agent context (R58). -/
inductive AgentState where
  | normal
  | waiting
  | entitled
  | holding
deriving DecidableEq, Repr

/-- An agent context (R58). The last write verdict is held as its cause, which fixes its status (R4). -/
structure AgentCtx where
  state : AgentState
  streak : Nat
  commits : Nat
  refusals : Nat
  verdict : Cause
  /-- the loss list, oldest first -/
  loss : List LossEntry
deriving DecidableEq, Repr

/-- A hold slot (R64). -/
inductive HoldSlot where
  | free
  | entitled (agent : Agent) (remaining : Nat)
  | holding (agent : Agent) (cell : Addr) (region : Nat) (remaining : Nat)
deriving DecidableEq, Repr

/-- The reservation monitor: the table oldest first (R21), the hold slots (R64), the wait list oldest first (R70), and the sixteen
agent contexts (R58), by port and then by tag. -/
structure Monitor where
  table : List TableEntry
  slots : Four HoldSlot
  waitList : List Agent
  ctxs : Four (Four AgentCtx)
deriving DecidableEq, Repr

/-! ### The tally engine (chapter 5) -/

/-- Tally arithmetic of a TALLY region (R89, R90). -/
inductive TallyMode where
  | wrap
  | saturate
deriving DecidableEq, Repr

/-- Width of a tally (R85). -/
inductive TallyWidth where
  | w4
  | w8
deriving DecidableEq, Repr

/-- Phase of a tally (R85). In WRITING the new value is known, and `clamped` says whether the outcome is SATURATED or NONE. -/
inductive TallyPhase where
  | reading
  | writing (newValue : BitVec 64) (clamped : Bool)
deriving DecidableEq, Repr

/-- A tally in flight (R85). `tag` is present while a half is outstanding. `addend` and the new value hold the width's low bytes.
`id` is the model's own reference to the order-list entry (assumption 6). -/
structure Tally where
  phase : TallyPhase
  agent : Agent
  cell : Addr
  region : Nat
  offset : Nat
  width : TallyWidth
  addend : BitVec 64
  mode : TallyMode
  epoch : BitVec 16
  tag : Option (BitVec 5)
  id : Nat
deriving DecidableEq, Repr

/-- The tally engine: four slots, none when FREE (R85), and the slots whose write half waits to issue, in the order their read halves
were retired (R91). -/
structure TallyEngine where
  slots : Four (Option Tally)
  waiting : List SlotIx
deriving DecidableEq, Repr

/-! ### The memory port (chapter 6) -/

/-- A transaction as it is passed to the memory controller (R119). -/
structure Transaction where
  tag : BitVec 5
  dir : Dir
  addr : Addr
  len : Length
  data : List Byte
deriving DecidableEq, Repr

/-- Whose work an outstanding transaction is: the values kept for records and comparisons (R117). -/
structure Owner where
  agent : Agent
  epoch : BitVec 16
  cell : Addr
  region : RegionIx
deriving DecidableEq, Repr

/-- Origin of an outstanding transaction (R117), with the request reference for an agent request and the slot for a tally half. -/
inductive Origin where
  | agentRequest (owner : Owner) (id : Nat) (disp : Disposition) (trigger : Bool)
  | tallyRead (owner : Owner) (slot : SlotIx)
  | tallyWrite (owner : Owner) (slot : SlotIx)
  | loaderRead
deriving DecidableEq, Repr

/-- An entry of the outstanding list (R117). Its memory tag is that of its transaction. -/
structure OutEntry where
  tx : Transaction
  origin : Origin
deriving DecidableEq, Repr

/-- The memory port. `timer` is none while the memory-timeout timer does not run (R124). `issued` is the model's own record of what
was passed to the memory controller since power-on, oldest first (assumption 7). -/
structure MemoryPort where
  outstanding : List OutEntry
  nextTag : BitVec 5
  timer : Option Nat
  issued : List Transaction
deriving DecidableEq, Repr

/-! ### The policy loader (chapter 7) -/

/-- Part state (R130). DRAINING and FETCHING are the phases of RELOADING. -/
inductive PartState where
  | loading
  | running
  | draining
  | fetching
deriving DecidableEq, Repr

/-- Kind of a region with the parameters of the kind (R132). -/
inductive RegionKind where
  | openRegion
  | guarded (lease holdLimit threshold : Nat)
  | tally (mode : TallyMode)
  | fenced (writers : BitVec 16)
deriving DecidableEq, Repr

/-- A region of the live table (R132). -/
structure Region where
  base : Nat
  length : Nat
  kind : RegionKind
deriving DecidableEq, Repr

/-- The read of the policy block in progress (R135, R136): the reads asked for and not yet issued, in order; the bytes returned; the
region count once the early check has passed; whether a read has failed. DESIGN CHOICE (assumption 25): a read asked for stands in `asked`
until a LOADER_READ_ISSUE command issues it, also while a place is free; that row says where this is safe. -/
structure BlockRead where
  asked : List Addr
  bytes : List Byte
  count : Option Nat
  failed : Bool
deriving DecidableEq, Repr

/-- The policy loader (R129). -/
structure Loader where
  part : PartState
  regions : List Region
  generation : BitVec 32
  entitlementLimit : Nat
  memoryTimeout : Nat
  valid : Bool
  pbase : Fin 4
  ownp : Fin 4
  reading : Option BlockRead
deriving DecidableEq, Repr

/-! ### The capture unit (chapter 8) -/

/-- The twelve record kinds (R147). -/
inductive RecordKind where
  | commit
  | refuse
  | brk
  | expire
  | evict
  | displace
  | entitle
  | hold
  | release
  | tally
  | fault
  | control
deriving DecidableEq, Repr

/-- The control codes (R147). -/
inductive ControlCode where
  | loadOk
  | loadInvalid
  | reloadOk
  | reloadRejected
  | monitorReset
  | portReset
deriving DecidableEq, Repr

/-- A capture record as it is offered (R147). Cell and region are present together. -/
structure Record where
  kind : RecordKind
  agent : Option Agent
  place : Option (Addr × RegionIx)
  cause : Option Cause
  control : Option ControlCode
  other : Option Agent
deriving DecidableEq, Repr

/-- A record in the ring, with the sequence number and the time base's value (R147, R149). -/
structure RingRecord where
  seq : BitVec 32
  time : BitVec 32
  record : Record
deriving DecidableEq, Repr

/-- Capture states (R151). -/
inductive CaptureState where
  | off
  | running
  | triggered
  | frozen
deriving DecidableEq, Repr

/-- Capture positions (R154 to R156). -/
inductive Position where
  | lead
  | centre
  | trail
deriving DecidableEq, Repr

/-- The capture setup (R159). A match byte or address is kept as given while its match is off (R179). -/
structure Setup where
  kindMask : BitVec 12
  regionMask : BitVec 17
  agentMask : BitVec 16
  triggerKind : Option RecordKind
  agentMatchOn : Bool
  agentMatch : Byte
  cellMatchOn : Bool
  cellMatch : Addr
  count : Nat
  position : Position
deriving DecidableEq, Repr

/-- The capture unit (R146, R149, R151). -/
structure Capture where
  timeBase : BitVec 32
  ring : List RingRecord
  nextSeq : BitVec 32
  state : CaptureState
  matchCount : Nat
  remaining : Nat
  setup : Setup
deriving DecidableEq, Repr

/-! ### The maintenance link and the attention logic (chapter 9) -/

/-- Status bytes of the link (R164). -/
inductive LinkStatus where
  | ack
  | busy
  | badcmd
  | badarg
deriving DecidableEq, Repr

/-- What the completion of the frame in progress will do (R163): nothing; clear the flags shown by CAUSES (R172); lower the counters
of an agent by the values returned (R60); or, after a port reset of that agent's port, end the AGENT frame without lowering them (R60). -/
inductive Completion where
  | nothing
  | clearCauses (shown : Byte)
  | lowerCounters (agent : Agent) (commits refusals : Nat)
  | clearCancelled
deriving DecidableEq, Repr

/-- Where the link controller stands (R163): between frames; waiting for a CS_n that was low at PORESET_n's deassertion to rise; or past
the point of effect of a frame, with the reply it shifts out. -/
inductive LinkFrame where
  | between
  | awaitRise
  | replied (status : LinkStatus) (data : List Byte) (completion : Completion)
deriving DecidableEq, Repr

/-- The maintenance link controller: the maintenance pause (R170) and the frame. -/
structure Link where
  pause : Bool
  frame : LinkFrame
deriving DecidableEq, Repr

/-- The attention logic: cause flags and mask by the bit positions of 11.5 (R171, R173), and the renewal marks of the CAUSES frame in
progress (R172). -/
structure Attention where
  flags : Byte
  mask : Byte
  marks : Option Byte
deriving DecidableEq, Repr

/-! ### The part -/

/-- The whole part, one field for each block that owns state, and the queue of the commands that wait to be taken. -/
structure State where
  ports : Four Port
  pointer : Fin 4
  monitor : Monitor
  tally : TallyEngine
  memory : MemoryPort
  loader : Loader
  capture : Capture
  link : Link
  attention : Attention
  pending : List Instr
deriving DecidableEq, Repr

/-- A front end after power-on reset (R102). -/
def Port.powerOn : Port :=
  { queue := [], order := [], epoch := 0, resetAsserted := false, nextId := 0, taken := [] }

/-- An agent context after power-on reset (R61). -/
def AgentCtx.powerOn : AgentCtx :=
  { state := .normal, streak := 0, commits := 0, refusals := 0, verdict := .none, loss := [] }

/-- The power-on capture setup (R159). DESIGN CHOICE (assumption 3): the agent byte and cell address under a match that is off are 0,
which affects nothing; safe. -/
def Setup.powerOn : Setup :=
  { kindMask := BitVec.allOnes 12, regionMask := BitVec.allOnes 17, agentMask := BitVec.allOnes 16
    triggerKind := none, agentMatchOn := false, agentMatch := 0, cellMatchOn := false, cellMatch := 0
    count := 1, position := .lead }

/-- The part right after power-on reset: every block in its power-on values, the part state LOADING (R129) and the three header reads
asked for (R130, R135), to be issued by LOADER_READ_ISSUE (assumption 25). DESIGN CHOICE (assumption 3): both straps sampled as 0,
every PRST_n deasserted, CS_n high; unsafe. -/
def State.reset : State :=
  { ports := Four.all Port.powerOn
    pointer := 0
    monitor :=
      { table := [], slots := Four.all .free, waitList := [], ctxs := Four.all (Four.all AgentCtx.powerOn) }
    tally := { slots := Four.all none, waiting := [] }
    memory := { outstanding := [], nextTag := 0, timer := none, issued := [] }
    loader :=
      { part := .loading, regions := [], generation := 0, entitlementLimit := 0
        memoryTimeout := Config.powerOnTimeout, valid := false, pbase := 0, ownp := 0
        reading := some
          { asked := [0x0000FE00#32, 0x0000FE08#32, 0x0000FE10#32], bytes := [], count := none, failed := false } }
    capture :=
      { timeBase := 0, ring := [], nextSeq := 0, state := .off, matchCount := 0, remaining := 0
        setup := Setup.powerOn }
    link := { pause := false, frame := .between }
    attention := { flags := 0, mask := 0, marks := none }
    pending := [] }

end Sys2Proof.Machine
end

