-- ==== Sys2Proof/Machine/Flags.lean ====
section
/-! DEFINITION. Flags.lean: the attention logic: the eight cause flags, their renewal marks, the mask and ATTN_n (R171 to R174). -/
namespace Sys2Proof.Machine

/-- The eight cause flags (R171). -/
inductive CauseFlag where
  | frozen
  | loadInvalid
  | reloadRejected
  | reloadApplied
  | memError
  | memTimeout
  | saturated
  | eviction
deriving DecidableEq, Repr

/-- The bit of a flag in the CAUSES byte, the STATUS bytes and the mask (11.5). -/
def CauseFlag.bit : CauseFlag → Byte
  | .frozen => 0x01#8
  | .loadInvalid => 0x02#8
  | .reloadRejected => 0x04#8
  | .reloadApplied => 0x08#8
  | .memError => 0x10#8
  | .memTimeout => 0x20#8
  | .saturated => 0x40#8
  | .eviction => 0x80#8

/-- A set request is taken: the flag becomes or stays set (R171), and its renewal mark is turned on while a CAUSES frame is in
progress (R172). -/
def Attention.raise (a : Attention) (f : CauseFlag) : Attention :=
  { a with flags := a.flags ||| f.bit, marks := a.marks.map (· ||| f.bit) }

/-- The snapshot of a CAUSES frame starts its renewal marks, all off (R172). -/
def Attention.startMarks (a : Attention) : Attention := { a with marks := some 0#8 }

/-- The marks of a frame that ends are dropped (R172). -/
def Attention.dropMarks (a : Attention) : Attention := { a with marks := none }

/-- A CAUSES frame completes: each flag shown in its snapshot whose mark is off is cleared (R172). -/
def Attention.complete (a : Attention) (shown : Byte) : Attention :=
  { a with flags := a.flags &&& ~~~(shown &&& ~~~(a.marks.getD 0#8)), marks := none }

/-- Is ATTN_n driven low: is a flag set whose mask bit is 0 (R174)? -/
def Attention.low (a : Attention) : Bool := (a.flags &&& ~~~a.mask) != 0#8

/-- The level of the attention line: true while ATTN_n is driven low (R174). -/
def State.attnLow (s : State) : Bool := s.attention.low

end Sys2Proof.Machine
end

