-- ==== Sys2Proof/Machine/Codes.lean ====
section
/-! DEFINITION. Codes.lean: the status that belongs to each cause (R4) and the byte codes of section 11.5 and 11.3. -/
namespace Sys2Proof.Machine

/-- The one status a cause belongs to (R4, 11.5). -/
def Cause.status : Cause → Status
  | .none => .okay
  | .saturated => .okay
  | .noReservation => .refused
  | .broken => .refused
  | .expired => .refused
  | .evicted => .refused
  | .displaced => .refused
  | .held => .refused
  | .fenced => .refused
  | .dropped => .refused
  | .misaligned => .fault
  | .straddle => .fault
  | .burstInGuard => .fault
  | .narrowTally => .fault
  | .memError => .fault
  | .memTimeout => .fault

/-- The status of a response. -/
def Response.status (r : Response) : Status := r.cause.status

/-- Status codes of the AGENT verdict (11.5). -/
def Status.code : Status → Byte
  | .okay => 0
  | .refused => 1
  | .fault => 2

/-- Cause codes (11.5). -/
def Cause.code : Cause → Byte
  | .none => 0
  | .noReservation => 1
  | .broken => 2
  | .expired => 3
  | .evicted => 4
  | .displaced => 5
  | .held => 6
  | .fenced => 7
  | .dropped => 8
  | .misaligned => 9
  | .straddle => 10
  | .burstInGuard => 11
  | .narrowTally => 12
  | .memError => 13
  | .memTimeout => 14
  | .saturated => 15

/-- Record kind codes (11.5), as numbers: the bit of kind code k in the kind mask is k − 1. -/
def RecordKind.code : RecordKind → Nat
  | .commit => 1
  | .refuse => 2
  | .brk => 3
  | .expire => 4
  | .evict => 5
  | .displace => 6
  | .entitle => 7
  | .hold => 8
  | .release => 9
  | .tally => 10
  | .fault => 11
  | .control => 12

/-- The record kinds in code order. -/
def recordKinds : List RecordKind :=
  [.commit, .refuse, .brk, .expire, .evict, .displace, .entitle, .hold, .release, .tally, .fault, .control]

/-- The record kind of a code, if it is one. -/
def recordKindOf (code : Byte) : Option RecordKind := recordKinds.find? fun k => k.code == code.toNat

/-- Control codes (11.5). -/
def ControlCode.code : ControlCode → Byte
  | .loadOk => 1
  | .loadInvalid => 2
  | .reloadOk => 3
  | .reloadRejected => 4
  | .monitorReset => 5
  | .portReset => 6

/-- Part state codes (11.5). -/
def PartState.code : PartState → Byte
  | .loading => 0
  | .running => 1
  | .draining => 2
  | .fetching => 3

/-- Capture state codes (11.5). -/
def CaptureState.code : CaptureState → Byte
  | .off => 0
  | .running => 1
  | .triggered => 2
  | .frozen => 3

/-- Agent state codes (11.5). -/
def AgentState.code : AgentState → Byte
  | .normal => 0
  | .waiting => 1
  | .entitled => 2
  | .holding => 3

/-- A region index as it is returned: 0 to 15, or 10H for DEFAULT (R178). -/
def RegionIx.code : RegionIx → Byte
  | .region i => BitVec.ofNat 8 i
  | .default => 0x10#8

/-- Status bytes of the link (11.3). -/
def LinkStatus.code : LinkStatus → Byte
  | .ack => 0x01#8
  | .busy => 0x02#8
  | .badcmd => 0x03#8
  | .badarg => 0x04#8

end Sys2Proof.Machine
end

