-- ==== Sys2Proof/Machine/Capture.lean ====
section
/-! DEFINITION. Capture.lean: capture records, the filter, the trigger, the capture states and the ring (chapter 8). -/
namespace Sys2Proof.Machine

/-! ### The records and the fields each kind carries (R147) -/

/-- COMMIT: the writer, the written cell and region (R50). -/
def Record.ofCommit (a : Agent) (c : Addr) (r : RegionIx) : Record :=
  { kind := .commit, agent := some a, place := some (c, r), cause := none, control := none, other := none }

/-- REFUSE: the writer, the cell and region, the cause (R55, R13). -/
def Record.ofRefuse (a : Agent) (c : Addr) (r : RegionIx) (k : Cause) : Record :=
  { kind := .refuse, agent := some a, place := some (c, r), cause := some k, control := none, other := none }

/-- BREAK: the victim, the cell and the entry's region, and the writer as other agent (R49). -/
def Record.ofBreak (victim : Agent) (c : Addr) (r : RegionIx) (writer : Agent) : Record :=
  { kind := .brk, agent := some victim, place := some (c, r), cause := none, control := none, other := some writer }

/-- EXPIRE: the entry's agent, cell and region (R31). -/
def Record.ofExpire (a : Agent) (c : Addr) (r : RegionIx) : Record :=
  { kind := .expire, agent := some a, place := some (c, r), cause := none, control := none, other := none }

/-- EVICT: the evicted entry's agent, cell and region, and the reading agent as other agent (R28). -/
def Record.ofEvict (victim : Agent) (c : Addr) (r : RegionIx) (reader : Agent) : Record :=
  { kind := .evict, agent := some victim, place := some (c, r), cause := none, control := none, other := some reader }

/-- DISPLACE: the reading agent and the displaced entry's cell and region (R28). -/
def Record.ofDisplace (a : Agent) (c : Addr) (r : RegionIx) : Record :=
  { kind := .displace, agent := some a, place := some (c, r), cause := none, control := none, other := none }

/-- ENTITLE: the entitled agent (R67, R71). -/
def Record.ofEntitle (a : Agent) : Record :=
  { kind := .entitle, agent := some a, place := none, cause := none, control := none, other := none }

/-- HOLD: the holder, the held cell and region (R73). -/
def Record.ofHold (a : Agent) (c : Addr) (r : RegionIx) : Record :=
  { kind := .hold, agent := some a, place := some (c, r), cause := none, control := none, other := none }

/-- RELEASE: the slot's agent, the held cell and region unless it was an entitlement, and NONE or EXPIRED (R75, R78, R79). -/
def Record.ofRelease (a : Agent) (place : Option (Addr × RegionIx)) (k : Cause) : Record :=
  { kind := .release, agent := some a, place := place, cause := some k, control := none, other := none }

/-- TALLY: the tally's agent, cell and region, and its outcome (R92). -/
def Record.ofTally (a : Agent) (c : Addr) (r : RegionIx) (k : Cause) : Record :=
  { kind := .tally, agent := some a, place := some (c, r), cause := some k, control := none, other := none }

/-- FAULT: the request's agent, first cell and region, and the cause (R13, R93, R94, R123, R125). -/
def Record.ofFault (a : Agent) (c : Addr) (r : RegionIx) (k : Cause) : Record :=
  { kind := .fault, agent := some a, place := some (c, r), cause := some k, control := none, other := none }

/-- CONTROL with its code; only PORT_RESET carries an agent (R147). -/
def Record.ofControl (a : Option Agent) (k : ControlCode) : Record :=
  { kind := .control, agent := a, place := none, cause := none, control := some k, other := none }

/-! ### The filter (R150) and the trigger's match (R153) -/

/-- The bit of a region index or DEFAULT in the region mask (R150). -/
def regionBit : RegionIx → Nat
  | .region i => i
  | .default => 16

/-- Does the record pass all three masks? A field the record lacks passes its mask. -/
def Setup.passes (f : Setup) (r : Record) : Bool :=
  f.kindMask.getLsbD (r.kind.code - 1)
    && (match r.place with
        | some (_, ix) => f.regionMask.getLsbD (regionBit ix)
        | none => true)
    && (match r.agent with
        | some a => f.agentMask.getLsbD a.val
        | none => true)

/-- Does the record match the trigger setup? A match that is on fails for a record without its field. -/
def Setup.matchesTrigger (f : Setup) (r : Record) : Bool :=
  f.triggerKind == some r.kind
    && (!f.agentMatchOn || (match r.agent with
        | some a => a.val == f.agentMatch.toNat % 16
        | none => false))
    && (!f.cellMatchOn || (match r.place with
        | some (c, _) => c == f.cellMatch
        | none => false))

/-! ### Taking a record (R149, R152 to R156) -/

/-- The append of a record (R149). -/
def Capture.append (c : Capture) (r : Record) : Capture :=
  { c with
    ring := (if Config.ringSize ≤ c.ring.length then c.ring.drop 1 else c.ring)
      ++ [{ seq := c.nextSeq, time := c.timeBase, record := r }]
    nextSeq := c.nextSeq + 1 }

/-- The trigger record is taken by the position (R154 to R156). -/
def Capture.takeTrigger (c : Capture) (r : Record) : Capture :=
  match c.setup.position with
  | .lead => { c.append r with state := .frozen }
  | .centre => { c.append r with state := .triggered, remaining := Config.centreCount }
  | .trail => { ({ c with ring := [] } : Capture).append r with state := .triggered, remaining := Config.trailCount }

/-- A record taken in RUNNING that has passed the filter (R152, R153). -/
def Capture.takeRunning (c : Capture) (r : Record) : Capture :=
  if c.setup.matchesTrigger r then
    if c.matchCount + 1 = c.setup.count then
      ({ c with matchCount := c.matchCount + 1 } : Capture).takeTrigger r
    else ({ c with matchCount := c.matchCount + 1 } : Capture).append r
  else c.append r

/-- A record taken in TRIGGERED that has passed the filter: the append that spends the post-trigger count freezes (R155, R156). -/
def Capture.takeTriggered (c : Capture) (r : Record) : Capture :=
  { c.append r with
    remaining := c.remaining - 1
    state := if c.remaining - 1 = 0 then .frozen else .triggered }

/-- The capture unit takes one record by its state and filter (R152). -/
def Capture.take (c : Capture) (r : Record) : Capture :=
  match c.state with
  | .off => c
  | .frozen => c
  | .running => if c.setup.passes r then c.takeRunning r else c
  | .triggered => if c.setup.passes r then c.takeTriggered r else c

/-! ### Capture commands (R157 to R160) -/

/-- CAPTURE_ARM (R157): the ring is emptied, both counts go to 0 and the capture runs. -/
def Capture.arm (c : Capture) : Capture :=
  { c with ring := [], matchCount := 0, remaining := 0, state := .running }

/-- May the setup or the ring be used: is the state OFF or FROZEN (R159, R160)? -/
def Capture.idle (c : Capture) : Bool :=
  match c.state with
  | .off => true
  | .frozen => true
  | .running => false
  | .triggered => false

/-- CAPTURE_STOP (R158): RUNNING and TRIGGERED become FROZEN. -/
def Capture.stop (c : Capture) : Capture := if c.idle then c else { c with state := .frozen }

/-- The position a byte names, if it names one (11.3). -/
def positionOf (b : Byte) : Option Position :=
  if b = 0 then some .lead else if b = 1 then some .centre else if b = 2 then some .trail else none

/-- The setup that the arguments of CAPTURE_SETUP give, or none where one of them is out of range (R159, R179). -/
def Setup.ofArgs (x : SetupArgs) : Option Setup :=
  if x.count = 0#8 then none
  else if x.triggerKind ≠ 0#8 ∧ recordKindOf x.triggerKind = none then none
  else if x.matchFlags.getLsbD 1 ∧ cellOf x.cellMatch ≠ x.cellMatch then none
  else
    match positionOf x.position with
    | none => none
    | some p =>
      some
        { kindMask := x.kindMask.setWidth 12
          regionMask := x.regionMask.setWidth 17
          agentMask := x.agentMask
          triggerKind := recordKindOf x.triggerKind
          agentMatchOn := x.matchFlags.getLsbD 0
          agentMatch := x.agentMatch
          cellMatchOn := x.matchFlags.getLsbD 1
          cellMatch := x.cellMatch
          count := x.count.toNat
          position := p }

/-- The records CAPTURE_READ returns: from index `start` upward, at most `count` (R160). -/
def Capture.window (c : Capture) (start count : Nat) : List RingRecord := (c.ring.drop start).take count

end Sys2Proof.Machine
end

