-- ==== Sys2Proof/Machine/Monitor.lean ====
section
/-! DEFINITION. Monitor.lean: the reservation monitor (chapters 2 to 4): the table, the loss lists, guarded reads and writes, hold slots,
escalation, the wait list, the expiries, the port reset and the monitor drop. -/
namespace Sys2Proof.Machine

/-- What an operation of the monitor brings about: its new state, the records it offers, in order, and whether it sets EVICTION. -/
structure MonitorStep where
  monitor : Monitor
  records : List Record
  evicted : Bool := false
deriving DecidableEq, Repr

/-! ### Agent contexts -/

/-- The context of an agent (R58). -/
def Monitor.ctx (m : Monitor) (a : Agent) : AgentCtx := (m.ctxs.get (portOf a)).get (tagOf a)

/-- The monitor with the context of an agent changed. -/
def Monitor.updCtx (m : Monitor) (a : Agent) (f : AgentCtx → AgentCtx) : Monitor :=
  { m with ctxs := m.ctxs.set (portOf a) ((m.ctxs.get (portOf a)).set (tagOf a) (f (m.ctx a))) }

/-- The monitor with every context changed alike. -/
def Monitor.mapCtxs (m : Monitor) (f : AgentCtx → AgentCtx) : Monitor :=
  { m with ctxs := m.ctxs.map fun bank => bank.map f }

/-- The monitor with an agent's state set. -/
def Monitor.setAgentState (m : Monitor) (a : Agent) (st : AgentState) : Monitor :=
  m.updCtx a fun x => { x with state := st }

/-- The monitor with an agent's last write verdict set (R59). -/
def Monitor.setVerdict (m : Monitor) (a : Agent) (k : Cause) : Monitor := m.updCtx a fun x => { x with verdict := k }

/-- An increment that stops at `top` (00_scope.md, Counters). -/
def bump (top n : Nat) : Nat := if n < top then n + 1 else n

/-- The refusals counter rises (R55, R13). -/
def AgentCtx.countRefusal (x : AgentCtx) : AgentCtx := { x with refusals := bump Config.counterTop x.refusals }

/-! ### Loss lists (R35 to R37) -/

/-- A loss entry is inserted (R36). -/
def insertLoss (l : List LossEntry) (c : Addr) (k : Cause) : List LossEntry :=
  if l.any (·.cell == c) then l.filter (·.cell != c) ++ [{ cell := c, cause := k }]
  else if Config.lossSize ≤ l.length then l.drop 1 ++ [{ cell := c, cause := k }]
  else l ++ [{ cell := c, cause := k }]

/-- The agent loses the cell: its loss list receives it with the cause (R36). -/
def Monitor.lose (m : Monitor) (a : Agent) (c : Addr) (k : Cause) : Monitor :=
  m.updCtx a fun x => { x with loss := insertLoss x.loss c k }

/-- The loss entry of the agent for the cell, if any, is removed (R37). -/
def Monitor.forget (m : Monitor) (a : Agent) (c : Addr) : Monitor :=
  m.updCtx a fun x => { x with loss := x.loss.filter (·.cell != c) }

/-- The cause of the agent's loss entry for the cell. -/
def Monitor.lossOf (m : Monitor) (a : Agent) (c : Addr) : Option Cause :=
  ((m.ctx a).loss.find? (·.cell == c)).map (·.cause)

/-! ### The table (R20 to R22) -/

/-- Is the entry that of the agent on the cell? -/
def TableEntry.isOf (e : TableEntry) (a : Agent) (c : Addr) : Bool := e.agent == a && e.cell == c

/-- The entry of the agent on the cell. -/
def Monitor.entry (m : Monitor) (a : Agent) (c : Addr) : Option TableEntry := m.table.find? (·.isOf a c)

/-- The entry of the agent on the cell, if any, is removed; the others close up (R22). -/
def Monitor.removeEntry (m : Monitor) (a : Agent) (c : Addr) : Monitor :=
  { m with table := m.table.filter fun e => !e.isOf a c }

/-- How many entries the agent has. -/
def Monitor.entriesOf (m : Monitor) (a : Agent) : Nat := m.table.countP (·.agent == a)

/-! ### Hold slots (R64) -/

/-- The agent that occupies the slot. -/
def HoldSlot.agent? : HoldSlot → Option Agent
  | .free => none
  | .entitled a _ => some a
  | .holding a _ _ _ => some a

/-- The cell the slot is HOLDING. -/
def HoldSlot.cell? : HoldSlot → Option Addr
  | .free => none
  | .entitled _ _ => none
  | .holding _ c _ _ => some c

/-- Is the slot FREE? -/
def HoldSlot.isFree : HoldSlot → Bool
  | .free => true
  | .entitled _ _ => false
  | .holding _ _ _ _ => false

/-- Is the slot ENTITLED for the agent? -/
def HoldSlot.entitles (h : HoldSlot) (a : Agent) : Bool :=
  match h with
  | .free => false
  | .entitled b _ => b == a
  | .holding _ _ _ _ => false

/-- Is the slot HOLDING the cell for the agent? -/
def HoldSlot.holds (h : HoldSlot) (a : Agent) (c : Addr) : Bool :=
  match h with
  | .free => false
  | .entitled _ _ => false
  | .holding b d _ _ => b == a && d == c

/-- Is the slot HOLDING the cell for another agent than `a`? -/
def HoldSlot.holdsForOther (h : HoldSlot) (a : Agent) (c : Addr) : Bool :=
  match h with
  | .free => false
  | .entitled _ _ => false
  | .holding b d _ _ => b != a && d == c

/-- The lowest-numbered slot with a property. -/
def Monitor.findSlot (m : Monitor) (p : HoldSlot → Bool) : Option SlotIx :=
  [0, 1, 2, 3].find? fun i => p (m.slots.get i)

/-- Is some slot HOLDING the cell? -/
def Monitor.cellHeld (m : Monitor) (c : Addr) : Bool := m.slots.toList.any fun h => h.cell? == some c

/-- The monitor with a slot replaced. -/
def Monitor.setSlot (m : Monitor) (i : SlotIx) (h : HoldSlot) : Monitor := { m with slots := m.slots.set i h }

/-! ### Escalation, promotion and release (R66 to R71, R75, R78, R79) -/

/-- The agent takes the slot with an entitlement of the live limit, and an ENTITLE record is offered (R67, R71). -/
def Monitor.entitle (m : Monitor) (a : Agent) (i : SlotIx) (limit : Nat) : MonitorStep :=
  { monitor := (m.setSlot i (.entitled a limit)).setAgentState a .entitled, records := [.ofEntitle a] }

/-- Promotion for a slot that has just become FREE (R71). -/
def Monitor.promote (m : Monitor) (i : SlotIx) (limit : Nat) : MonitorStep :=
  match m.waitList with
  | [] => { monitor := m, records := [] }
  | w :: rest => ({ m with waitList := rest } : Monitor).entitle w i limit

/-- The escalation check (R66) and, where it escalates, the placing of the agent (R67, R68). -/
def Monitor.escalationCheck (m : Monitor) (a : Agent) (threshold limit : Nat) : MonitorStep :=
  if threshold ≠ 0 ∧ (m.ctx a).state = .normal ∧ threshold ≤ (m.ctx a).streak then
    let m1 := m.updCtx a fun x => { x with streak := 0 }
    match m1.findSlot (·.isFree) with
    | some i => m1.entitle a i limit
    | none =>
      { monitor := ({ m1 with waitList := m1.waitList ++ [a] } : Monitor).setAgentState a .waiting, records := [] }
  else { monitor := m, records := [] }

/-- The slot becomes FREE, its agent NORMAL, a RELEASE record is offered and promotion is taken (R75, R78, R79). -/
def Monitor.releaseSlot (m : Monitor) (i : SlotIx) (a : Agent) (place : Option (Addr × RegionIx)) (k : Cause)
    (limit : Nat) : MonitorStep :=
  let p := ((m.setSlot i .free).setAgentState a .normal).promote i limit
  { p with records := .ofRelease a place k :: p.records }

/-! ### Guarded reads (R23 to R28, R73) -/

/-- Case 1: the read converts the entitlement of slot `i` to a hold (R24, R73). -/
def Monitor.convert (m : Monitor) (a : Agent) (c : Addr) (region holdLimit : Nat) (i : SlotIx) : MonitorStep :=
  { monitor :=
      (((m.removeEntry a c).forget a c).setSlot i (.holding a c region holdLimit)).setAgentState a .holding
    records := [.ofHold a c (.region region)] }

/-- Case 3: the entry is refreshed: its lease restarts and it moves to the youngest end (R26). -/
def Monitor.refresh (m : Monitor) (e : TableEntry) (lease : Nat) : Monitor :=
  { m with table := (m.removeEntry e.agent e.cell).table ++ [{ e with lease := lease }] }

/-- Step 2 of R27: displacement of the agent's oldest entry, else eviction of the oldest of a full table (R28). -/
def Monitor.makeRoom (m : Monitor) (a : Agent) : MonitorStep :=
  if Config.agentEntries ≤ m.entriesOf a then
    match m.table.find? (·.agent == a) with
    | some e =>
      { monitor := (m.removeEntry e.agent e.cell).lose e.agent e.cell .displaced
        records := [.ofDisplace e.agent e.cell (.region e.region)] }
    | none => { monitor := m, records := [] }
  else if Config.tableSize ≤ m.table.length then
    match m.table with
    | e :: rest =>
      { monitor := ({ m with table := rest } : Monitor).lose e.agent e.cell .evicted
        records := [.ofEvict e.agent e.cell (.region e.region) a]
        evicted := true }
    | [] => { monitor := m, records := [] }
  else { monitor := m, records := [] }

/-- Case 4: a new entry is created in the three steps of R27. -/
def Monitor.create (m : Monitor) (a : Agent) (c : Addr) (region lease : Nat) : MonitorStep :=
  let r := (m.forget a c).makeRoom a
  { r with
    monitor :=
      { r.monitor with
        table := r.monitor.table ++ [{ agent := a, cell := c, region := region, lease := lease }] } }

/-- The monitor takes a guarded read: the first case of R23 that matches. -/
def Monitor.guardedRead (m : Monitor) (a : Agent) (c : Addr) (region lease holdLimit : Nat) : MonitorStep :=
  match m.findSlot (·.entitles a), m.cellHeld c with
  | some i, false => m.convert a c region holdLimit i
  | _, _ =>
    match m.findSlot (·.holds a c), m.entry a c with
    | some _, _ => { monitor := m, records := [] }
    | none, some e => { monitor := m.refresh e lease, records := [] }
    | none, none => m.create a c region lease

/-! ### Guarded writes (R43 to R57, R78) -/

/-- The five cases of R43. -/
inductive Judgement where
  | heldByOther
  | byHold (slot : SlotIx)
  | byEntry
  | lost (cause : Cause)
  | noReservation
deriving DecidableEq, Repr

/-- The first case of R43 that matches the writing agent and the cell. -/
def Monitor.judge (m : Monitor) (a : Agent) (c : Addr) : Judgement :=
  match m.findSlot (·.holdsForOther a c) with
  | some _ => .heldByOther
  | none =>
    match m.findSlot (·.holds a c) with
    | some i => .byHold i
    | none =>
      match m.entry a c with
      | some _ => .byEntry
      | none =>
        match m.lossOf a c with
        | some k => .lost k
        | none => .noReservation

/-- One broken entry: it is removed and its agent receives a loss entry BROKEN (R49). -/
def Monitor.breakEntry (m : Monitor) (e : TableEntry) : Monitor :=
  (m.removeEntry e.agent e.cell).lose e.agent e.cell .broken

/-- The entries a commit by `a` on `c` breaks, oldest first (R49). -/
def Monitor.victims (m : Monitor) (a : Agent) (c : Addr) : List TableEntry :=
  m.table.filter fun e => e.agent != a && e.cell == c

/-- Every other agent's entry on the cell is broken, oldest first, with one BREAK record each (R49). -/
def Monitor.breakOthers (m : Monitor) (a : Agent) (c : Addr) : MonitorStep :=
  { monitor := (m.victims a c).foldl Monitor.breakEntry m
    records := (m.victims a c).map fun e => .ofBreak e.agent e.cell (.region e.region) a }

/-- The writer's streak goes to 0 and its commits counter rises (R57). -/
def AgentCtx.countCommit (x : AgentCtx) : AgentCtx :=
  { x with streak := 0, commits := bump Config.counterTop x.commits }

/-- A commit by a table entry (R46, R49, R50, R57). -/
def Monitor.commitByEntry (m : Monitor) (a : Agent) (c : Addr) (region : RegionIx) : MonitorStep :=
  let b := ((m.removeEntry a c).updCtx a AgentCtx.countCommit).breakOthers a c
  { b with records := .ofCommit a c region :: b.records }

/-- A commit by the hold of slot `i` (R45, R49, R50, R57, R78). -/
def Monitor.commitByHold (m : Monitor) (a : Agent) (c : Addr) (region : RegionIx) (i : SlotIx) (limit : Nat) :
    MonitorStep :=
  let b := (m.updCtx a AgentCtx.countCommit).breakOthers a c
  let place :=
    match m.slots.get i with
    | .holding _ d held _ => some (d, RegionIx.region held)
    | .entitled _ _ => none
    | .free => none
  let r := b.monitor.releaseSlot i a place .none limit
  { monitor := r.monitor, records := .ofCommit a c region :: b.records ++ r.records }

/-- Does a refusal with this cause raise the streak and call for the escalation check (R56)? -/
def Cause.raisesStreak : Cause → Bool
  | .noReservation => true
  | .broken => true
  | .expired => true
  | .evicted => true
  | .displaced => true
  | .held => false
  | .dropped => false
  | .fenced => false
  | .none => false
  | .misaligned => false
  | .straddle => false
  | .burstInGuard => false
  | .narrowTally => false
  | .memError => false
  | .memTimeout => false
  | .saturated => false

/-- A refusal, in the steps of R55. -/
def Monitor.refuse (m : Monitor) (a : Agent) (c : Addr) (region : RegionIx) (k : Cause) (threshold limit : Nat) :
    MonitorStep :=
  let m1 := m.updCtx a fun x =>
    { x.countRefusal with
      verdict := k
      streak := if k.raisesStreak then bump Config.streakTop x.streak else x.streak }
  if k.raisesStreak then
    let e := m1.escalationCheck a threshold limit
    { e with records := .ofRefuse a c region k :: e.records }
  else { monitor := m1, records := [.ofRefuse a c region k] }

/-- The decision on a guarded write: what the monitor does, and the cause of the refusal or none for a commit. -/
structure WriteStep where
  step : MonitorStep
  refusal : Option Cause
deriving DecidableEq, Repr

/-- The monitor takes a guarded write (R43). -/
def Monitor.guardedWrite (m : Monitor) (a : Agent) (c : Addr) (region : RegionIx) (threshold limit : Nat) : WriteStep :=
  match m.judge a c with
  | .heldByOther => { step := m.refuse a c region .held threshold limit, refusal := some .held }
  | .byHold i => { step := m.commitByHold a c region i limit, refusal := none }
  | .byEntry => { step := m.commitByEntry a c region, refusal := none }
  | .lost k => { step := (m.forget a c).refuse a c region k threshold limit, refusal := some k }
  | .noReservation => { step := m.refuse a c region .noReservation threshold limit, refusal := some .noReservation }

/-! ### Answers given at classification (R13) -/

/-- The monitor takes an ANSWER for the agent's context and offers its record (R13). -/
def Monitor.answer (m : Monitor) (a : Agent) (d : Dir) (c : Addr) (region : RegionIx) (k : Cause) : MonitorStep :=
  let m1 :=
    match d with
    | .read => m
    | .write => m.setVerdict a k
  if k = .fenced then { monitor := m1.updCtx a AgentCtx.countRefusal, records := [.ofRefuse a c region k] }
  else { monitor := m1, records := [.ofFault a c region k] }

/-! ### The tick and the expiries (R30, R31, R72, R75, R79) -/

/-- One microsecond passes for a slot (R72, R79). -/
def HoldSlot.tick : HoldSlot → HoldSlot
  | .free => .free
  | .entitled a n => .entitled a (n - 1)
  | .holding a c r n => .holding a c r (n - 1)

/-- One microsecond passes for every lease, entitlement and hold (R30, R72, R79). A count that comes to 0 has run out: its expiry is taken
before the next tick and before the next guarded request (assumption 2). -/
def Monitor.tick (m : Monitor) : Monitor :=
  { m with
    table := m.table.map fun e => { e with lease := e.lease - 1 }
    slots := m.slots.map HoldSlot.tick }

/-- The lease expiry of the agent's entry on the cell (R31), if there is such an entry and its lease has run out. -/
def Monitor.leaseExpiry (m : Monitor) (a : Agent) (c : Addr) : MonitorStep :=
  match m.entry a c with
  | some e =>
    if e.lease = 0 then
      { monitor := (m.removeEntry a c).lose a c .expired, records := [.ofExpire a c (.region e.region)] }
    else { monitor := m, records := [] }
  | none => { monitor := m, records := [] }

/-- The entitlement expiry of slot `i` (R75), if it is ENTITLED and its entitlement has run out. -/
def Monitor.entitlementExpiry (m : Monitor) (i : SlotIx) (limit : Nat) : MonitorStep :=
  match m.slots.get i with
  | .entitled a 0 => m.releaseSlot i a none .expired limit
  | .entitled _ (_ + 1) => { monitor := m, records := [] }
  | .free => { monitor := m, records := [] }
  | .holding _ _ _ _ => { monitor := m, records := [] }

/-- The hold-limit expiry of slot `i` (R79), if it is HOLDING and its hold limit has run out. -/
def Monitor.holdExpiry (m : Monitor) (i : SlotIx) (limit : Nat) : MonitorStep :=
  match m.slots.get i with
  | .holding a c r 0 => (m.lose a c .expired).releaseSlot i a (some (c, .region r)) .expired limit
  | .holding _ _ _ (_ + 1) => { monitor := m, records := [] }
  | .free => { monitor := m, records := [] }
  | .entitled _ _ => { monitor := m, records := [] }

/-! ### The port reset (R40, R62, R82) and the monitor drop (R41, R63, R83) -/

/-- A slot of an agent of port `p` becomes FREE and is promoted (R82, steps 2 and 3). -/
def Monitor.freeForReset (p : PortIx) (limit : Nat) (st : MonitorStep) (i : SlotIx) : MonitorStep :=
  match (st.monitor.slots.get i).agent? with
  | some a =>
    if portOf a = p then
      let r := (st.monitor.setSlot i .free).promote i limit
      { st with monitor := r.monitor, records := st.records ++ r.records }
    else st
  | none => st

/-- The port reset of the agents of port `p`: table and loss lists (R40), contexts (R62), wait list and slots (R82). -/
def Monitor.portReset (m : Monitor) (p : PortIx) (limit : Nat) : MonitorStep :=
  let m1 : Monitor :=
    { m with
      table := m.table.filter fun e => portOf e.agent != p
      waitList := m.waitList.filter fun a => portOf a != p
      ctxs := m.ctxs.set p (Four.all AgentCtx.powerOn) }
  [0, 1, 2, 3].foldl (Monitor.freeForReset p limit) { monitor := m1, records := [] }

/-- A slot is freed by the drop: a held cell is lost as DROPPED (R83, step 1). -/
def Monitor.dropSlot (m : Monitor) (i : SlotIx) : Monitor :=
  match m.slots.get i with
  | .free => m
  | .entitled _ _ => m.setSlot i .free
  | .holding a c _ _ => (m.setSlot i .free).lose a c .dropped

/-- The monitor drop: table oldest first (R41), then slots, then wait list, then states and streaks (R83, R63). DESIGN CHOICE (assumption 26):
R84 says that an EXPIRED loss entry of a hold-limit expiry taken before the drop stays as the holder's newest; the DROPPED entries of the
agent's own table entries are inserted newer here, as R41 and R36 say; unsafe for a claim about that order. -/
def Monitor.drop (m : Monitor) : Monitor :=
  let m1 := m.table.foldl (fun x e => x.lose e.agent e.cell .dropped) { m with table := [] }
  let m2 := [0, 1, 2, 3].foldl Monitor.dropSlot m1
  ({ m2 with waitList := [] } : Monitor).mapCtxs fun x => { x with state := .normal, streak := 0 }

/-! ### The AGENT clear (R60) -/

/-- The completed clear lowers each counter of the agent by the value returned (R60). -/
def Monitor.lowerCounters (m : Monitor) (a : Agent) (commits refusals : Nat) : Monitor :=
  m.updCtx a fun x => { x with commits := x.commits - commits, refusals := x.refusals - refusals }

end Sys2Proof.Machine
end

