-- ==== Sys2Proof/Machine/Classifier.lean ====
section
/-! DEFINITION. Classifier.lean: the region classifier (section 1.4, R6 to R12, R17, R18). It holds no state: it reads the request, its
port, the live region table and the sampled straps. -/
namespace Sys2Proof.Machine

/-- The policy base of the sampled strap (R128). -/
def Loader.policyBase (l : Loader) : Addr := Config.policyBase l.pbase

/-- The granule that contains the window (R128). -/
def Loader.policyGranule (l : Loader) : Nat := granuleOf l.policyBase.toNat

/-- Areas of the address space as the classifier sees it (section 1.4). -/
inductive Area where
  | window
  | region (index : Nat)
  | defaultSpace
deriving DecidableEq, Repr

/-- Does the region cover the granule (R7)? -/
def Region.covers (r : Region) (g : Nat) : Bool := decide (r.base ≤ g) && decide (g < r.base + r.length)

/-- Does the byte address lie in the window (R7)? -/
def Loader.inWindow (l : Loader) (a : Nat) : Bool :=
  decide (l.policyBase.toNat ≤ a) && decide (a < l.policyBase.toNat + Config.windowBytes)

/-- The area of a byte address (R7). A valid table has at most one region that covers it; among several the first would be taken
(assumption 16). -/
def Loader.areaOf (l : Loader) (a : Nat) : Area :=
  if l.inWindow a then .window
  else
    match l.regions.findIdx? fun r => r.covers (granuleOf a) with
    | some i => .region i
    | none => .defaultSpace

/-- The kind reported for an area: OPEN for the window and default space (R7). -/
def Loader.kindOf (l : Loader) : Area → RegionKind
  | .window => .openRegion
  | .defaultSpace => .openRegion
  | .region i =>
    match l.regions[i]? with
    | some r => r.kind
    | none => .openRegion

/-- The region index reported for an area (R7). -/
def Area.index : Area → RegionIx
  | .window => .default
  | .defaultSpace => .default
  | .region i => .region i

/-- The checks against the area's kind (R10). -/
def kindCheck (k : RegionKind) (r : Req) : Option Cause :=
  match k with
  | .openRegion => none
  | .fenced _ => none
  | .guarded _ _ _ => if r.len.isBurst then some .burstInGuard else none
  | .tally _ =>
    if r.len.isBurst then some .burstInGuard
    else if r.dir = .write ∧ r.len.bytes < 4 then some .narrowTally
    else none

/-- The fence check (R11): writes to a FENCED region by its mask, writes to the window by the owner port. -/
def Loader.fenceCheck (l : Loader) (p : PortIx) (area : Area) (k : RegionKind) (r : Req) : Option Cause :=
  match r.dir with
  | .read => none
  | .write =>
    match area, k with
    | .window, _ => if p = l.ownp then none else some .fenced
    | _, .fenced writers => if writers.getLsbD (agentOf p r.tag).val then none else some .fenced
    | _, _ => none

/-- Does a WRITE from the owner port into the window cover a byte of the generation word (R18)? -/
def Loader.triggers (l : Loader) (p : PortIx) (area : Area) (r : Req) : Bool :=
  decide (r.dir = .write) && decide (area = .window) && decide (p = l.ownp)
    && decide (r.firstByte ≤ l.policyBase.toNat + 7) && decide (l.policyBase.toNat + 4 ≤ r.lastByte)

/-- The disposition of a request that passed every check (R12). -/
def passedDisposition (k : RegionKind) (d : Dir) : Disposition :=
  match k, d with
  | .guarded _ _ _, .read => .guardedRead
  | .guarded _ _ _, .write => .guardedWrite
  | .tally _, .read => .tallyRead
  | .tally _, .write => .tallyWrite
  | .openRegion, _ => .forward
  | .fenced _, _ => .forward

/-- What the classifier hands to the admission arbiter with a request (R12). -/
structure Classified where
  disp : Disposition
  agent : Agent
  dir : Dir
  kind : RegionKind
  region : RegionIx
  cell : Addr
  cells : Nat
  trigger : Bool
deriving DecidableEq, Repr

/-- The first check a request fails, in the order alignment, straddle, kind, fence (R8 to R11). -/
def Loader.failedCheck (l : Loader) (p : PortIx) (r : Req) : Option Cause :=
  let area := l.areaOf r.firstByte
  if r.misaligned then some .misaligned
  else if l.areaOf r.lastByte ≠ area then some .straddle
  else
    match kindCheck (l.kindOf area) r with
    | some k => some k
    | none => l.fenceCheck p area (l.kindOf area) r

/-- The classification of a request of port `p` (R6, R12). -/
def Loader.classify (l : Loader) (p : PortIx) (r : Req) : Classified :=
  let area := l.areaOf r.firstByte
  let kind := l.kindOf area
  { disp :=
      match l.failedCheck p r with
      | some k => .answer k
      | none => passedDisposition kind r.dir
    agent := agentOf p r.tag
    dir := r.dir
    kind := kind
    region := area.index
    cell := cellOf r.addr
    cells := r.len.cells
    trigger := (l.failedCheck p r).isNone && l.triggers p area r }

end Sys2Proof.Machine
end

