-- ==== Sys2Proof/Machine/Policy.lean ====
section
/-! DEFINITION. Policy.lean: the policy block: its fields and their validity (section 7.3), and the loader's read of it (section 7.4). -/
namespace Sys2Proof.Machine

/-- What a valid block holds (R131, R132). -/
structure Block where
  generation : BitVec 32
  entitlementLimit : Nat
  memoryTimeout : Nat
  regions : List Region
deriving DecidableEq, Repr

/-! ### Header fields (R131, 11.2) -/

/-- The region count of the header. -/
def blockCount (bytes : List Byte) : Nat := leField bytes 12 1

/-- Conditions 1 and 2 of R134, the early check of R135. -/
def headerAccepted (bytes : List Byte) : Bool :=
  leField bytes 0 4 == Config.signature && decide (blockCount bytes ≤ 16)

/-- Condition 3 of R134: the header's zero bytes. -/
def headerZeros (bytes : List Byte) : Bool := leField bytes 13 3 == 0 && leField bytes 20 4 == 0

/-- The 32-bit words of a run of bytes, in order. -/
def wordsOf : List Byte → List Nat
  | b0 :: b1 :: b2 :: b3 :: rest => leNat [b0, b1, b2, b3] :: wordsOf rest
  | _ => []

/-- The sum of R133, modulo 2^32, over the header and the used descriptors, which are all the bytes read. -/
def blockSum (bytes : List Byte) : Nat := (wordsOf bytes).foldl (· + ·) 0 % 2 ^ 32

/-! ### Descriptors (R132, 11.2) -/

/-- The kind of a descriptor with its parameters, if the conditions of its kind hold: what the kind does not use is zero. -/
def descriptorKind (d : List Byte) : Option RegionKind :=
  let mode := leField d 9 1
  let threshold := leField d 10 1
  let lease := leField d 12 2
  let hold := leField d 14 2
  let writers := leField d 16 2
  match leField d 8 1 with
  | 0 => if mode = 0 ∧ threshold = 0 ∧ lease = 0 ∧ hold = 0 ∧ writers = 0 then some .openRegion else none
  | 1 =>
    if mode = 0 ∧ threshold ≤ 15 ∧ 1 ≤ lease ∧ lease ≤ 4095 ∧ 1 ≤ hold ∧ hold ≤ 4095 ∧ writers = 0 then
      some (.guarded lease hold threshold)
    else none
  | 2 =>
    if mode ≤ 1 ∧ threshold = 0 ∧ lease = 0 ∧ hold = 0 ∧ writers = 0 then
      some (.tally (if mode = 0 then .wrap else .saturate))
    else none
  | 3 =>
    if mode = 0 ∧ threshold = 0 ∧ lease = 0 ∧ hold = 0 then some (.fenced (BitVec.ofNat 16 writers)) else none
  | _ => none

/-- The region of a descriptor, if it is well formed (R132). -/
def descriptorRegion (d : List Byte) : Option Region :=
  let base := leField d 0 4
  let length := leField d 4 4
  if base < Config.granules ∧ 1 ≤ length ∧ base + length ≤ Config.granules ∧ leField d 11 1 = 0 ∧ leField d 18 6 = 0 then
    (descriptorKind d).map fun k => { base := base, length := length, kind := k }
  else none

/-- The regions of the first `n` descriptors, if every one is well formed (condition 6 of R134). -/
def descriptorRegions : Nat → List Byte → Option (List Region)
  | 0, _ => some []
  | n + 1, bytes =>
    match descriptorRegion (bytes.take Config.headerBytes), descriptorRegions n (bytes.drop Config.headerBytes) with
    | some r, some rs => some (r :: rs)
    | _, _ => none

/-- Do two regions share a granule (condition 7 of R134)? -/
def Region.overlaps (r q : Region) : Bool := decide (r.base < q.base + q.length) && decide (q.base < r.base + r.length)

/-- Does no region of the list overlap another (condition 7 of R134)? -/
def noOverlaps : List Region → Bool
  | [] => true
  | r :: rs => rs.all (fun q => !r.overlaps q) && noOverlaps rs

/-- The block that the bytes read hold, if it is valid: conditions 1 to 8 of R134 with the policy granule `g`. -/
def validBlock (g : Nat) (bytes : List Byte) : Option Block :=
  if headerAccepted bytes && headerZeros bytes && decide (1 ≤ leField bytes 16 2) && blockSum bytes == 0 then
    match descriptorRegions (blockCount bytes) (bytes.drop Config.headerBytes) with
    | some rs =>
      if noOverlaps rs && rs.all (fun r => !r.covers g) then
        some
          { generation := BitVec.ofNat 32 (leField bytes 4 4)
            entitlementLimit := leField bytes 16 2
            memoryTimeout := leField bytes 18 2
            regions := rs }
      else none
    | none => none
  else none

/-! ### The read of the block (R135, R136) -/

/-- The three header reads. -/
def headerReads (base : Addr) : List Addr := [base, base + 8, base + 16]

/-- The 3 × c descriptor reads, in ascending address order. -/
def descriptorReads (base : Addr) (c : Nat) : List Addr :=
  (List.range (3 * c)).map fun k => base + BitVec.ofNat 32 (Config.headerBytes + 8 * k)

/-- A read of the block as it begins (R135, step 1): the header reads are asked for, to be issued by LOADER_READ_ISSUE (assumption 25). -/
def BlockRead.start (base : Addr) : BlockRead :=
  { asked := headerReads base, bytes := [], count := none, failed := false }

/-- A loader read is retired OKAY: its bytes are taken, unless a read has failed before (R135, R136). -/
def BlockRead.okay (b : BlockRead) (bytes : List Byte) : BlockRead :=
  if b.failed then b else { b with bytes := b.bytes ++ bytes }

/-- A loader read is retired as failed: no further reads, and those not issued are withdrawn (R136). -/
def BlockRead.fail (b : BlockRead) : BlockRead := { b with asked := [], failed := true }

/-- How the read of the block stands after a loader read is retired. -/
inductive ReadStatus where
  | goesOn (b : BlockRead)
  | ended (block : Option Block)
deriving DecidableEq, Repr

/-- The early check, the asking for descriptor reads, and the final check (R135), or the invalid end after a failure (R136). `base` and
`g` are the policy base and granule, `quiet` says that no loader read is outstanding. -/
def BlockRead.advance (b : BlockRead) (base : Addr) (g : Nat) (quiet : Bool) : ReadStatus :=
  if !quiet || !b.asked.isEmpty then .goesOn b
  else if b.failed then .ended none
  else
    match b.count with
    | some _ => .ended (validBlock g b.bytes)
    | none =>
      if headerAccepted b.bytes then
        if blockCount b.bytes = 0 then .ended (validBlock g b.bytes)
        else
          .goesOn
            { b with asked := descriptorReads base (blockCount b.bytes), count := some (blockCount b.bytes) }
      else .ended none

/-- The block's values become live (R138 steps 1 and 2, R143 steps 1 and 2). -/
def Loader.install (l : Loader) (b : Block) : Loader :=
  { l with
    regions := b.regions
    generation := b.generation
    entitlementLimit := b.entitlementLimit
    memoryTimeout := b.memoryTimeout
    valid := true }

/-- The loader enters FETCHING and begins the read of the block (R141). -/
def Loader.startFetch (l : Loader) : Loader :=
  { l with part := .fetching, reading := some (BlockRead.start l.policyBase) }

end Sys2Proof.Machine
end

