-- ==== Sys2Proof/Machine/Ports.lean ====
section
/-! DEFINITION. Ports.lean: the agent port front end: request queue, order list, epoch (sections 6.1 and 6.2). -/
namespace Sys2Proof.Machine

/-- The port window (R102). -/
def Port.window (q : Port) : Nat := q.order.length

/-- Does the front end accept a request (R103)? -/
def Port.accepts (q : Port) : Bool := !q.resetAsserted && decide (q.window < Config.windowSize)

/-- Acceptance (R103): the request joins the queue and the order list with the port epoch. -/
def Port.accept (q : Port) (r : Req) : Port :=
  let acc : Accepted := { id := q.nextId, req := r, epoch := q.epoch }
  { q with
    queue := q.queue ++ [acc]
    order := q.order ++ [{ acc := acc, state := .pending }]
    nextId := q.nextId + 1 }

/-- An order-list entry whose response is formed: PENDING becomes READY, and DISCARD is marked finished instead (R105). -/
def EntryState.complete (e : EntryState) (r : Response) : EntryState :=
  match e with
  | .pending => .ready r
  | .ready r0 => .ready r0
  | .discard _ => .discard true

/-- An order-list entry whose request's work ends without a response: DISCARD is marked finished (R105). -/
def EntryState.finish (e : EntryState) : EntryState :=
  match e with
  | .pending => .pending
  | .ready r => .ready r
  | .discard _ => .discard true

/-- The entry after a port reset: DISCARD, finished if it was READY or already finished, or if no work of its request remains
(R108, step 3). An admitted entry still PENDING has work outstanding. -/
def EntryState.reset (e : EntryState) : EntryState :=
  match e with
  | .pending => .discard false
  | .ready _ => .discard true
  | .discard f => .discard f

/-- Is the entry PENDING? -/
def EntryState.isPending (e : EntryState) : Bool :=
  match e with
  | .pending => true
  | .ready _ => false
  | .discard _ => false

/-- Is the entry DISCARD with the mark finished? -/
def EntryState.isFinished (e : EntryState) : Bool :=
  match e with
  | .pending => false
  | .ready _ => false
  | .discard f => f

/-- The port with the state of the entry of request `id` changed. -/
def Port.updEntry (q : Port) (id : Nat) (f : EntryState → EntryState) : Port :=
  { q with order := q.order.map fun e => if e.acc.id = id then { e with state := f e.state } else e }

/-- Is the entry of request `id` PENDING? -/
def Port.isPending (q : Port) (id : Nat) : Bool := q.order.any fun e => e.acc.id == id && e.state.isPending

/-- Finished DISCARD entries at the head are removed without a response (R107). -/
def Port.sweep (q : Port) : Port := { q with order := q.order.dropWhile fun e => e.state.isFinished }

/-- The response of request `id` is formed (R105), and finished heads are removed. -/
def Port.complete (q : Port) (id : Nat) (r : Response) : Port := (q.updEntry id (·.complete r)).sweep

/-- The work of request `id` ends without a response (R105), and finished heads are removed. -/
def Port.finish (q : Port) (id : Nat) : Port := (q.updEntry id (·.finish)).sweep

/-- The READY response at the head leaves, and finished heads behind it are removed (R106, R107). -/
def Port.depart (q : Port) : Port :=
  match q.order with
  | [] => q
  | e :: rest =>
    match e.state with
    | .ready r => ({ q with order := rest, taken := q.taken ++ [r] } : Port).sweep
    | .pending => q
    | .discard _ => q

/-- The front end's part of a port reset (R108, steps 1 to 4), with the removal of finished heads. -/
def Port.reset (q : Port) : Port :=
  ({ q with
      resetAsserted := true
      queue := []
      order := (q.order.filter fun e => !q.queue.any fun acc => acc.id == e.acc.id).map fun e =>
        { e with state := e.state.reset }
      epoch := q.epoch + 1 } : Port).sweep

end Sys2Proof.Machine
end

