-- ==== Sys2Proof/Machine/TallyEngine.lean ====
section
/-! DEFINITION. TallyEngine.lean: tally slots, the busy-cell set and the arithmetic of tallies (sections 5.1 and 5.2). -/
namespace Sys2Proof.Machine

/-- Bits of a tally's width (R85). -/
def TallyWidth.bits : TallyWidth → Nat
  | .w4 => 32
  | .w8 => 64

/-- Bytes of a tally's width (R85). -/
def TallyWidth.bytes : TallyWidth → Nat
  | .w4 => 4
  | .w8 => 8

/-- Extent of a half: a single of the width (R88, R91). -/
def TallyWidth.len : TallyWidth → Length
  | .w4 => .single .s4
  | .w8 => .single .s8

/-- Width of a tally write by its extent: size 8 is width 8, and the only other size admitted is 4 (R12, R87). -/
def widthOf : Length → TallyWidth
  | .single .s8 => .w8
  | .single .s4 => .w4
  | .single .s2 => .w4
  | .single .s1 => .w4
  | .burst _ => .w8

/-- The address of both halves: the cell address plus the offset (R88, R91). -/
def Tally.addr (t : Tally) : Addr := t.cell + BitVec.ofNat 32 t.offset

/-- WRAP: the sum modulo 2^32 or 2^64 (R89). -/
def wrapSum (w : TallyWidth) (x y : BitVec 64) : BitVec 64 :=
  (x.setWidth w.bits + y.setWidth w.bits).setWidth 64

/-- The exact sum of two's-complement integers of the width (R90). -/
def exactSum (w : TallyWidth) (x y : BitVec 64) : Int :=
  (x.setWidth w.bits).toInt + (y.setWidth w.bits).toInt

/-- The largest two's-complement integer of the width (R90). -/
def maxSum (w : TallyWidth) : Int := 2 ^ (w.bits - 1) - 1

/-- The smallest two's-complement integer of the width (R90). -/
def minSum (w : TallyWidth) : Int := -2 ^ (w.bits - 1)

/-- SATURATE: the new value, and whether the outcome is SATURATED (R90). -/
def saturateSum (w : TallyWidth) (x y : BitVec 64) : BitVec 64 × Bool :=
  if maxSum w < exactSum w x y then ((BitVec.ofInt w.bits (maxSum w)).setWidth 64, true)
  else if exactSum w x y < minSum w then ((BitVec.ofInt w.bits (minSum w)).setWidth 64, true)
  else ((BitVec.ofInt w.bits (exactSum w x y)).setWidth 64, false)

/-- New value and outcome of a tally from the bytes its read half returned (R89, R90). -/
def Tally.form (t : Tally) (bytes : List Byte) : BitVec 64 × Bool :=
  match t.mode with
  | .wrap => (wrapSum t.width (BitVec.ofNat 64 (leNat bytes)) t.addend, false)
  | .saturate => saturateSum t.width (BitVec.ofNat 64 (leNat bytes)) t.addend

/-- The bytes of a WRITING tally's write half (R91). -/
def Tally.writeData (t : Tally) : List Byte :=
  match t.phase with
  | .reading => []
  | .writing v _ => leBytes t.width.bytes v.toNat

/-- The cause the response carries if the write half completes OKAY (R85). -/
def Tally.outcome (t : Tally) : Cause :=
  match t.phase with
  | .reading => .none
  | .writing _ clamped => if clamped then .saturated else .none

/-- The FREE slot a tally takes. DESIGN CHOICE (assumption 11): the lowest-numbered; nothing outside the engine can tell (R85); safe. -/
def TallyEngine.freeSlot (e : TallyEngine) : Option SlotIx :=
  [0, 1, 2, 3].find? fun i => (e.slots.get i).isNone

/-- Slots in use (R85). -/
def TallyEngine.inUse (e : TallyEngine) : Nat := e.slots.toList.countP (·.isSome)

/-- The busy-cell set (R86). -/
def TallyEngine.busyCells (e : TallyEngine) : List Addr := e.slots.toList.filterMap fun t => t.map (·.cell)

/-- Is the cell in the busy-cell set (R86)? -/
def TallyEngine.busy (e : TallyEngine) (c : Addr) : Bool := e.busyCells.contains c

/-- The engine with a slot replaced. -/
def TallyEngine.setSlot (e : TallyEngine) (i : SlotIx) (t : Option Tally) : TallyEngine :=
  { e with slots := e.slots.set i t }

end Sys2Proof.Machine
end

