-- ==== Sys2Proof/Machine/Ops.lean ====
section
/-! DEFINITION. Ops.lean: the named operations over the whole part that several commands share: set requests, offers of records, issue
and retirement of transactions, the end of tallies, the read of the policy block and reloads. -/
namespace Sys2Proof.Machine

/-! ### Set requests and records -/

/-- A set request for a cause flag is taken (R171). -/
def State.setFlag (s : State) (f : CauseFlag) : State := { s with attention := s.attention.raise f }

/-- Does taking the record freeze the capture? -/
def Capture.freezesOn (c : Capture) (r : Record) : Bool := decide (c.state ≠ .frozen) && decide ((c.take r).state = .frozen)

/-- A record is offered: the capture unit takes it (R152), and sets FROZEN if that froze the capture (R151). -/
def State.offer (s : State) (r : Record) : State :=
  let s1 : State := { s with capture := s.capture.take r }
  if s.capture.freezesOn r then s1.setFlag .frozen else s1

/-- The records of one event are offered in order; the capture unit takes them as one group (R148). -/
def State.offerAll (s : State) (rs : List Record) : State := rs.foldl State.offer s

/-- What an operation of the monitor brings about takes place: its state, its records, and the flag EVICTION. -/
def State.takeMonitor (s : State) (m : MonitorStep) : State :=
  let s1 := ({ s with monitor := m.monitor } : State).offerAll m.records
  if m.evicted then s1.setFlag .eviction else s1

/-! ### Ports -/

/-- The state with the front end of port `p` changed. -/
def State.updPort (s : State) (p : PortIx) (f : Port → Port) : State :=
  { s with ports := s.ports.set p (f (s.ports.get p)) }

/-- The response of request `id` of port `p` is formed (R105). -/
def State.respond (s : State) (p : PortIx) (id : Nat) (k : Cause) (data : List Byte) : State :=
  s.updPort p fun q => q.complete id { cause := k, data := data }

/-- The agent's last write verdict is set (R59). -/
def State.setVerdict (s : State) (a : Agent) (k : Cause) : State :=
  { s with monitor := s.monitor.setVerdict a k }

/-! ### Places, tags and issue (R117 to R119, R124) -/

/-- Places in use: outstanding entries, and write halves waiting to issue (R117). -/
def State.placesUsed (s : State) : Nat := s.memory.outstanding.length + s.tally.waiting.length

/-- Is a memory-side place free (R112, R117)? -/
def State.placeFree (s : State) : Bool := decide (s.placesUsed < Config.places)

/-- The timer as it starts with the live memory timeout: it does not run when that is 0 (R124). -/
def startTimer (timeout : Nat) : Option Nat := if timeout = 0 then none else some timeout

/-- A transaction is issued: it takes the next tag, joins the outstanding list, and is passed to the memory controller; in an empty list
it becomes the oldest and the timer starts (R119, R124). -/
def MemoryPort.issue (m : MemoryPort) (timeout : Nat) (d : Dir) (addr : Addr) (len : Length) (data : List Byte)
    (origin : Origin) : MemoryPort :=
  let tx : Transaction := { tag := m.nextTag, dir := d, addr := addr, len := len, data := data }
  { outstanding := m.outstanding ++ [{ tx := tx, origin := origin }]
    nextTag := m.nextTag + 1
    timer := if m.outstanding.isEmpty then startTimer timeout else m.timer
    issued := m.issued ++ [tx] }

/-- The oldest entry is retired, and the timer starts for the next, if there is one (R121, R124). -/
def MemoryPort.retire (m : MemoryPort) (timeout : Nat) : MemoryPort :=
  { m with
    outstanding := m.outstanding.drop 1
    timer := if (m.outstanding.drop 1).isEmpty then none else startTimer timeout }

/-- A transaction of the part is issued. -/
def State.issue (s : State) (d : Dir) (addr : Addr) (len : Length) (data : List Byte) (origin : Origin) : State :=
  { s with memory := s.memory.issue s.loader.memoryTimeout d addr len data origin }

/-- The owner of a tally's halves, as the outstanding list keeps it (R117). -/
def Tally.owner (t : Tally) : Owner :=
  { agent := t.agent, epoch := t.epoch, cell := t.cell, region := .region t.region }

/-- The write half that has waited longest is issued, and its tag recorded in its slot (R91, R119). -/
def State.issueWriteHalf (s : State) : State :=
  match s.tally.waiting with
  | [] => s
  | i :: rest =>
    match s.tally.slots.get i with
    | some t =>
      ({ s with tally :=
          { slots := s.tally.slots.set i (some { t with tag := some s.memory.nextTag }), waiting := rest } } : State).issue
        .write t.addr t.width.len t.writeData (.tallyWrite t.owner i)
    | none => { s with tally := { s.tally with waiting := rest } }

/-- Every waiting write half is issued, in order: they go ahead of an admitted request that asks for issue (R119). -/
def State.issueWriteHalves (s : State) : State := s.tally.waiting.foldl (fun x _ => x.issueWriteHalf) s

/-! ### Completion of agent requests (R122, R123, R125) -/

/-- Steps 1 and 2 of R122 and R123: the order-list entry, and a write's verdict if the entry was PENDING. -/
def State.completeRequest (s : State) (o : Owner) (id : Nat) (d : Dir) (k : Cause) (data : List Byte) : State :=
  let s1 := s.respond (portOf o.agent) id k data
  if d = .write ∧ (s.ports.get (portOf o.agent)).isPending id then s1.setVerdict o.agent k else s1

/-- Read-failure cleanup: the entry on the cell is removed when the recorded epoch is the port's (R38, R39). -/
def State.readFailureCleanup (s : State) (o : Owner) : State :=
  if o.epoch = (s.ports.get (portOf o.agent)).epoch then
    { s with monitor := s.monitor.removeEntry o.agent o.cell }
  else s

/-! ### The end of a tally (R92 to R94) -/

/-- The tally in slot `i` ends with the cause of its response: entry and verdict by the epoch comparison, the record, and the slot
becomes FREE. -/
def State.endTally (s : State) (i : SlotIx) (t : Tally) (k : Cause) (r : Record) : State :=
  let p := portOf t.agent
  let s1 :=
    if t.epoch = (s.ports.get p).epoch then (s.respond p t.id k []).setVerdict t.agent k
    else s.updPort p fun q => q.finish t.id
  let s2 := s1.offer r
  { s2 with tally := s2.tally.setSlot i none }

/-- A tally fails with one FAULT record (R93, R94). -/
def State.failTally (s : State) (i : SlotIx) (k : Cause) : State :=
  match s.tally.slots.get i with
  | some t => s.endTally i t k (.ofFault t.agent t.cell (.region t.region) k)
  | none => s

/-- The write half completes OKAY (R92). -/
def State.finishTally (s : State) (i : SlotIx) : State :=
  match s.tally.slots.get i with
  | some t => s.endTally i t t.outcome (.ofTally t.agent t.cell (.region t.region) t.outcome)
  | none => s

/-- The read half completes OKAY: the new value is formed, SATURATED is set if it clamps, and the write half waits to issue
(R89 to R91), by a later command (DESIGN CHOICE, assumption 27, which says where this is safe). -/
def State.readHalfDone (s : State) (i : SlotIx) (data : BitVec 512) : State :=
  match s.tally.slots.get i with
  | some t =>
    let v := t.form (laneBytes t.width.bytes data)
    let s1 : State :=
      { s with tally :=
          { slots := s.tally.slots.set i (some { t with phase := .writing v.1 v.2, tag := none })
            waiting := s.tally.waiting ++ [i] } }
    if v.2 then s1.setFlag .saturated else s1
  | none => s

/-! ### The policy block and reloads (R135 to R144) -/

/-- Is the outstanding list empty and every tally slot FREE (R141)? -/
def State.drained (s : State) : Bool := s.memory.outstanding.isEmpty && s.tally.inUse == 0

/-- A reload trigger is handed to the loader (R140), and FETCHING begins at once if nothing is to be drained (R141). -/
def State.reloadTrigger (s : State) : State :=
  match s.loader.part with
  | .running =>
    if s.drained then { s with loader := s.loader.startFetch } else { s with loader := { s.loader with part := .draining } }
  | .loading => s
  | .draining => s
  | .fetching => s

/-- The loader offers a CONTROL record. -/
def State.offerControl (s : State) (k : ControlCode) : State := s.offer (.ofControl none k)

/-- The part state becomes RUNNING and the read of the block is over. -/
def State.run (s : State) : State := { s with loader := { s.loader with part := .running, reading := none } }

/-- The read of the block ends, at start-up (R138, R139) or in a reload (R143, R144). In the other part states no read is in progress. -/
def State.endRead (s : State) (block : Option Block) : State :=
  match s.loader.part, block with
  | .loading, some b => (({ s with loader := s.loader.install b } : State).offerControl .loadOk).run
  | .loading, none => ((s.setFlag .loadInvalid).offerControl .loadInvalid).run
  | .fetching, some b =>
    ((({ s with loader := s.loader.install b, monitor := s.monitor.drop } : State).setFlag .reloadApplied).offerControl
      .reloadOk).run
  | .fetching, none => ((s.setFlag .reloadRejected).offerControl .reloadRejected).run
  | .running, _ => s
  | .draining, _ => s

/-- Is the transaction a loader read? -/
def Origin.isLoader : Origin → Bool
  | .loaderRead => true
  | .agentRequest _ _ _ _ => false
  | .tallyRead _ _ => false
  | .tallyWrite _ _ => false

/-- The loader takes the retirement of one of its reads (R135, R136), `f` being what it does to the read of the block. -/
def State.loaderRetired (s : State) (f : BlockRead → BlockRead) : State :=
  match s.loader.reading with
  | none => s
  | some b =>
    match (f b).advance s.loader.policyBase s.loader.policyGranule
        (!s.memory.outstanding.any fun e => e.origin.isLoader) with
    | .goesOn b1 => { s with loader := { s.loader with reading := some b1 } }
    | .ended block => s.endRead block

/-! ### Retirement (R121 to R125) -/

/-- The oldest entry leaves the list. -/
def State.retire (s : State) : State := { s with memory := s.memory.retire s.loader.memoryTimeout }

/-- The completion of a retired entry with an OKAY response is handed to its origin (R122). -/
def State.okayCompletion (s : State) (e : OutEntry) (data : BitVec 512) : State :=
  match e.origin with
  | .agentRequest o id _ trigger =>
    let bytes :=
      match e.tx.dir with
      | .read => laneBytes e.tx.len.bytes data
      | .write => []
    let s1 := s.completeRequest o id e.tx.dir .none bytes
    if trigger then s1.reloadTrigger else s1
  | .tallyRead _ i => s.readHalfDone i data
  | .tallyWrite _ i => s.finishTally i
  | .loaderRead => s.loaderRetired fun b => b.okay (laneBytes e.tx.len.bytes data)

/-- The completion of a retired entry as a failure with cause `k` is handed to its origin (R123, R125). -/
def State.failedCompletion (s : State) (e : OutEntry) (k : Cause) : State :=
  match e.origin with
  | .agentRequest o id disp _ =>
    let s1 := (s.completeRequest o id e.tx.dir k []).offer (.ofFault o.agent o.cell o.region k)
    if disp = .guardedRead then s1.readFailureCleanup o else s1
  | .tallyRead _ i => s.failTally i k
  | .tallyWrite _ i => s.failTally i k
  | .loaderRead => s.loaderRetired BlockRead.fail

/-- Retirement with an OKAY response (R121, R122). -/
def State.retireOkay (s : State) (e : OutEntry) (data : BitVec 512) : State := s.retire.okayCompletion e data

/-- Retirement as a failure: the flag, then the completion (R123, R125). -/
def State.retireFailed (s : State) (e : OutEntry) (f : CauseFlag) (k : Cause) : State :=
  (s.retire.setFlag f).failedCompletion e k

/-! ### The expiries (R31, R75, R79, R125) -/

/-- The lease expiry of the entry of `a` on `c`, if its lease has run out (R31). -/
def State.leaseExpiry (s : State) (a : Agent) (c : Addr) : State := s.takeMonitor (s.monitor.leaseExpiry a c)

/-- The entitlement expiry of slot `i`, if its entitlement has run out (R75). -/
def State.entitlementExpiry (s : State) (i : SlotIx) : State :=
  s.takeMonitor (s.monitor.entitlementExpiry i s.loader.entitlementLimit)

/-- The hold-limit expiry of slot `i`, if its hold limit has run out (R79). -/
def State.holdExpiry (s : State) (i : SlotIx) : State := s.takeMonitor (s.monitor.holdExpiry i s.loader.entitlementLimit)

/-- The memory timeout of the oldest entry, if the running timer has reached 0 (R124, R125). -/
def State.memoryTimeout (s : State) : State :=
  match s.memory.outstanding, s.memory.timer with
  | e :: _, some 0 => s.retireFailed e .memTimeout .memTimeout
  | _, _ => s

/-- The monitor takes every expiry that the last tick has left to it: leases in table order, then slots in slot order. Another order is the
order in which the expiry commands are queued (assumption 2). -/
def State.takeRunOuts (s : State) : State :=
  let s1 := (s.monitor.table.filter fun e => e.lease == 0).foldl (fun x e => x.leaseExpiry e.agent e.cell) s
  ([0, 1, 2, 3] : List SlotIx).foldl (fun x i => (x.entitlementExpiry i).holdExpiry i) s1

/-! ### The maintenance link (R162 to R164) -/

/-- The frame in progress, if any, ends without completion: marks are dropped and nothing is cleared (R163, R172). -/
def State.endFrame (s : State) : State :=
  { s with link := { s.link with frame := .between }, attention := s.attention.dropMarks }

/-- The reply of a frame at its point of effect: status byte, data bytes, and what completion will do. -/
def State.reply (s : State) (status : LinkStatus) (data : List Byte) (c : Completion) : State :=
  { s with link := { s.link with frame := .replied status data c } }

/-- The plain ACK of a command that returns no data. -/
def State.ack (s : State) : State := s.reply .ack [] .nothing

/-- A frame reaches its point of effect with effect `f`. An earlier frame has ended by then (assumption 9). While the controller waits for
a CS_n low since PORESET_n's deassertion to rise, no frame begins (R163). -/
def State.atPointOfEffect (s : State) (f : State → State) : State :=
  match s.link.frame with
  | .awaitRise => s
  | .between => f s.endFrame
  | .replied _ _ _ => f s.endFrame

/-- The byte the controller shifts out on MISO in the `k`-th byte after the one in which the point of effect fell (R162, R164): the status
byte, the data bytes, then 00H; BADCMD in every byte. What MISO carries between frames and while the controller waits for CS_n to rise the
manual does not say; DESIGN CHOICE (assumption 24): 00H. -/
def LinkFrame.miso (f : LinkFrame) (k : Nat) : Byte :=
  match f with
  | .between => 0
  | .awaitRise => 0
  | .replied .badcmd _ _ => LinkStatus.badcmd.code
  | .replied .ack data _ => if k = 0 then LinkStatus.ack.code else (data[k - 1]?).getD 0
  | .replied .busy _ _ => if k = 0 then LinkStatus.busy.code else 0
  | .replied .badarg _ _ => if k = 0 then LinkStatus.badarg.code else 0

/-- The byte the controller shifts out on MISO in byte `k` of a whole frame, counted from 0, whose point of effect falls at the end of its
`sent` command and argument bytes and leaves the controller in `f` (R162): 00H during those, and then the reply. -/
def LinkFrame.shiftsOut (f : LinkFrame) (sent k : Nat) : Byte := if k < sent then 0 else f.miso (k - sent)

end Sys2Proof.Machine
end

