-- ==== Sys2Proof/Machine/Snapshots.lean ====
section
/-! DEFINITION. Snapshots.lean: the data bytes the link commands return, in the layouts of the appendix (R165 to R168, R178, 11.3, 11.4). -/
namespace Sys2Proof.Machine

/-- A number as one byte. -/
def byteOf (n : Nat) : Byte := BitVec.ofNat 8 n

/-- A yes or no as one byte. -/
def flagByte (b : Bool) : Byte := if b then 1 else 0

/-- STATUS (R166): 16 bytes. -/
def State.statusBytes (s : State) : List Byte :=
  [s.loader.part.code, flagByte s.link.pause]
    ++ leBytes 4 s.loader.generation.toNat
    ++ [flagByte s.loader.valid, byteOf s.loader.regions.length, byteOf s.monitor.table.length,
        byteOf (s.monitor.slots.toList.countP fun h => !h.isFree), byteOf s.monitor.waitList.length,
        byteOf s.tally.inUse, byteOf s.memory.outstanding.length, s.capture.state.code,
        s.attention.flags, s.attention.mask]

/-- One loss entry: cell and cause (11.3, AGENT). -/
def LossEntry.bytes (e : LossEntry) : List Byte := leBytes 4 e.cell.toNat ++ [e.cause.code]

/-- The four loss entries of an AGENT frame, unused ones 00H (11.3). -/
def lossBytes : Nat → List LossEntry → List Byte
  | 0, _ => []
  | n + 1, [] => List.replicate 5 0 ++ lossBytes n []
  | n + 1, e :: rest => e.bytes ++ lossBytes n rest

/-- AGENT (R168): 29 bytes. -/
def AgentCtx.bytes (x : AgentCtx) : List Byte :=
  [x.state.code, byteOf x.streak] ++ leBytes 2 x.commits ++ leBytes 2 x.refusals
    ++ [x.verdict.status.code, x.verdict.code, byteOf x.loss.length] ++ lossBytes Config.lossSize x.loss

/-- One table entry: agent, region index, cell, lease remaining (11.3, RESERVATIONS). -/
def TableEntry.bytes (e : TableEntry) : List Byte :=
  [byteOf e.agent.val, byteOf e.region] ++ leBytes 4 e.cell.toNat ++ leBytes 2 e.lease

/-- RESERVATIONS (R167): the count, then the entries oldest first. -/
def Monitor.reservationBytes (m : Monitor) : List Byte :=
  byteOf m.table.length :: m.table.flatMap TableEntry.bytes

/-- One hold slot: state, agent, region index, cell, remaining (11.3, HOLDS). -/
def HoldSlot.bytes : HoldSlot → List Byte
  | .free => List.replicate 9 0
  | .entitled a n => [1, byteOf a.val, 0] ++ leBytes 4 0 ++ leBytes 2 n
  | .holding a c r n => [2, byteOf a.val, byteOf r] ++ leBytes 4 c.toNat ++ leBytes 2 n

/-- HOLDS (R167): the slots in slot order, the wait list's length, and its agents oldest first. -/
def Monitor.holdBytes (m : Monitor) : List Byte :=
  m.slots.toList.flatMap HoldSlot.bytes ++ byteOf m.waitList.length :: m.waitList.map fun a => byteOf a.val

/-- Kind, tally mode, threshold, lease, hold limit and writer mask of a region; what its kind does not use is 0 (R168, 11.3). -/
def RegionKind.bytes : RegionKind → List Byte
  | .openRegion => [0, 0, 0] ++ leBytes 2 0 ++ leBytes 2 0 ++ leBytes 2 0
  | .guarded lease hold threshold => [1, 0, byteOf threshold] ++ leBytes 2 lease ++ leBytes 2 hold ++ leBytes 2 0
  | .tally mode =>
      [2, (match mode with | .wrap => 0 | .saturate => 1), 0] ++ leBytes 2 0 ++ leBytes 2 0 ++ leBytes 2 0
  | .fenced writers => [3, 0, 0] ++ leBytes 2 0 ++ leBytes 2 0 ++ leBytes 2 writers.toNat

/-- REGION (R168): 18 bytes, all 0 where the live table has no region of that index. -/
def Loader.regionBytes (l : Loader) (i : Nat) : List Byte :=
  match l.regions[i]? with
  | some r => 1 :: leBytes 4 r.base ++ leBytes 4 r.length ++ r.kind.bytes
  | none => List.replicate 18 0

/-- The presence flags of a record (11.4). -/
def Record.presence (r : Record) : Byte :=
  byteOf ((if r.agent.isSome then 1 else 0) + (if r.place.isSome then 2 else 0) + (if r.cause.isSome then 4 else 0)
    + (if r.control.isSome then 8 else 0) + (if r.other.isSome then 16 else 0))

/-- Byte 13 of a record: the cause code or the control code (11.4). -/
def Record.codeByte (r : Record) : Byte :=
  match r.cause, r.control with
  | some k, _ => k.code
  | none, some k => k.code
  | none, none => 0

/-- An optional agent as a byte, 00H where it is absent (R178). -/
def agentByte : Option Agent → Byte
  | some a => byteOf a.val
  | none => 0

/-- A record of the ring: 18 bytes (11.4). -/
def RingRecord.bytes (x : RingRecord) : List Byte :=
  leBytes 4 x.seq.toNat ++ leBytes 4 x.time.toNat
    ++ [byteOf x.record.kind.code, x.record.presence, agentByte x.record.agent, agentByte x.record.other]
    ++ (match x.record.place with
        | some (c, ix) => [ix.code, x.record.codeByte] ++ leBytes 4 c.toNat
        | none => [0, x.record.codeByte] ++ leBytes 4 0)

/-- CAPTURE_READ (R160): held count, returned count, the records. -/
def Capture.readBytes (c : Capture) (start count : Nat) : List Byte :=
  leBytes 2 c.ring.length ++ leBytes 2 (c.window start count).length
    ++ (c.window start count).flatMap RingRecord.bytes

end Sys2Proof.Machine
end

