-- ==== Sys2Proof/Machine/Control.lean ====
section
/-! DEFINITION. Control.lean: the capture commands and the control commands of the link. -/
namespace Sys2Proof.Machine

/-- CAPTURE_SETUP (R159): BUSY while a capture runs, BADARG for arguments out of range, else the setup is replaced whole. -/
def execCaptureSetup (args : SetupArgs) (s : State) : Host.Outcome State Fault Refusal :=
  .next (s.atPointOfEffect fun x =>
    if x.capture.idle then
      match Setup.ofArgs args with
      | some f => ({ x with capture := { x.capture with setup := f } } : State).ack
      | none => x.reply .badarg [] .nothing
    else x.reply .busy [] .nothing)

/-- CAPTURE_ARM (R157). -/
def execCaptureArm (s : State) : Host.Outcome State Fault Refusal :=
  .next (s.atPointOfEffect fun x => ({ x with capture := x.capture.arm } : State).ack)

/-- CAPTURE_STOP (R158): a capture that runs is frozen and FROZEN is set; else nothing changes. -/
def execCaptureStop (s : State) : Host.Outcome State Fault Refusal :=
  .next (s.atPointOfEffect fun x =>
    if x.capture.idle then x.ack
    else (({ x with capture := x.capture.stop } : State).setFlag .frozen).ack)

/-- CAPTURE_READ (R160): BUSY while a capture runs, BADARG for a count of 0 or above 256, else the records. -/
def execCaptureRead (start : Byte) (count : BitVec 16) (s : State) : Host.Outcome State Fault Refusal :=
  .next (s.atPointOfEffect fun x =>
    if x.capture.idle then
      if count.toNat = 0 ∨ Config.ringSize < count.toNat then x.reply .badarg [] .nothing
      else x.reply .ack (x.capture.readBytes start.toNat count.toNat) .nothing
    else x.reply .busy [] .nothing)

/-- MONITOR_RESET (R170): the monitor drop, ending with the CONTROL record MONITOR_RESET (R41, R63, R83). -/
def execMonitorReset (s : State) : Host.Outcome State Fault Refusal :=
  .next (s.atPointOfEffect fun x =>
    (({ x with monitor := x.monitor.drop } : State).offer (.ofControl none .monitorReset)).ack)

/-- HALT (R170): the maintenance pause is set on. -/
def execHalt (s : State) : Host.Outcome State Fault Refusal :=
  .next (s.atPointOfEffect fun x => ({ x with link := { x.link with pause := true } } : State).ack)

/-- RESUME (R170): the maintenance pause is set off. -/
def execResume (s : State) : Host.Outcome State Fault Refusal :=
  .next (s.atPointOfEffect fun x => ({ x with link := { x.link with pause := false } } : State).ack)

end Sys2Proof.Machine
end

