-- ==== Sys2Proof/Machine/Inspection.lean ====
section
/-! DEFINITION. Inspection.lean: the link commands that return snapshots, the cause flags and the mask, and the ends of frames. -/
namespace Sys2Proof.Machine

/-- STATUS (R166). -/
def execStatus (s : State) : Host.Outcome State Fault Refusal :=
  .next (s.atPointOfEffect fun x => x.reply .ack x.statusBytes .nothing)

/-- CAUSES (R172): the flags are returned as they stand, and the renewal marks of this frame start. -/
def execCauses (s : State) : Host.Outcome State Fault Refusal :=
  .next (s.atPointOfEffect fun x =>
    ({ x with attention := x.attention.startMarks } : State).reply .ack [x.attention.flags]
      (.clearCauses x.attention.flags))

/-- CAUSES_COMPLETION (R172): each flag shown whose mark is off is cleared. Without a CAUSES frame in progress nothing completes. -/
def execCausesCompletion (s : State) : Host.Outcome State Fault Refusal :=
  match s.link.frame with
  | .replied _ _ (.clearCauses shown) =>
    .next { s with link := { s.link with frame := .between }, attention := s.attention.complete shown }
  | .replied _ _ .nothing => .next s
  | .replied _ _ (.lowerCounters _ _ _) => .next s
  | .replied _ _ .clearCancelled => .next s
  | .between => .next s
  | .awaitRise => .next s

/-- SETMASK (R173): the whole mask is replaced. -/
def execSetmask (mask : Byte) (s : State) : Host.Outcome State Fault Refusal :=
  .next (s.atPointOfEffect fun x => ({ x with attention := { x.attention with mask := mask } } : State).ack)

/-- The reply to AGENT n with clear option `clear` in range: the context, and with clear option 1 the lowering at completion (R168, R60). -/
def State.agentReply (s : State) (a : Agent) (clear : Bool) : State :=
  let x := s.monitor.ctx a
  s.reply .ack x.bytes (if clear then .lowerCounters a x.commits x.refusals else .nothing)

/-- AGENT (R168); an agent number above 15, or a clear option other than 0 or 1, is BADARG (R164). -/
def execAgent (number clear : Byte) (s : State) : Host.Outcome State Fault Refusal :=
  .next (s.atPointOfEffect fun x =>
    if h : number.toNat < 16 then
      if clear = 0 then x.agentReply ⟨number.toNat, h⟩ false
      else if clear = 1 then x.agentReply ⟨number.toNat, h⟩ true
      else x.reply .badarg [] .nothing
    else x.reply .badarg [] .nothing)

/-- AGENT_CLEAR (R60): the rise of CS_n completes and ends an AGENT frame with clear option 1 (R163): the counters are lowered by the
values returned, unless a port reset has cancelled the clear. Without such a frame in progress nothing completes (assumption 1). -/
def execAgentClear (s : State) : Host.Outcome State Fault Refusal :=
  match s.link.frame with
  | .replied _ _ (.lowerCounters a n k) =>
    .next { s with link := { s.link with frame := .between }, monitor := s.monitor.lowerCounters a n k }
  | .replied _ _ .nothing => .next s
  | .replied _ _ .clearCancelled => .next { s with link := { s.link with frame := .between } }
  | .replied _ _ (.clearCauses _) => .next s
  | .between => .next s
  | .awaitRise => .next s

/-- RESERVATIONS (R167). -/
def execReservations (s : State) : Host.Outcome State Fault Refusal :=
  .next (s.atPointOfEffect fun x => x.reply .ack x.monitor.reservationBytes .nothing)

/-- HOLDS (R167). -/
def execHolds (s : State) : Host.Outcome State Fault Refusal :=
  .next (s.atPointOfEffect fun x => x.reply .ack x.monitor.holdBytes .nothing)

/-- REGION (R168); an index above 15 is BADARG (R164). -/
def execRegion (index : Byte) (s : State) : Host.Outcome State Fault Refusal :=
  .next (s.atPointOfEffect fun x =>
    if index.toNat < 16 then x.reply .ack (x.loader.regionBytes index.toNat) .nothing
    else x.reply .badarg [] .nothing)

/-- BADCMD (R164): an unknown command byte is answered BADCMD and has no effect. A byte that names a command is not this event
(assumption 1). -/
def execBadcmd (byte : Byte) (s : State) : Host.Outcome State Fault Refusal :=
  if namesCommand byte then .next s else .next (s.atPointOfEffect fun x => x.reply .badcmd [] .nothing)

/-- FRAME_CUT_SHORT (R163): CS_n rises before the point of effect; no block changes, and the controller is between frames. -/
def execFrameCutShort (s : State) : Host.Outcome State Fault Refusal := .next s.endFrame

/-- FRAME_CUT_SHORT_AFTER_POINT_OF_EFFECT (R163): the frame ends without completion, so a CAUSES frame clears nothing and drops its marks,
and an AGENT frame lowers nothing. -/
def execFrameCutShortAfterPointOfEffect (s : State) : Host.Outcome State Fault Refusal := .next s.endFrame

end Sys2Proof.Machine
end

