-- ==== Sys2Proof/Machine/MemoryEvents.lean ====
section
/-! DEFINITION. MemoryEvents.lean: WRITE_HALF_ISSUE, LOADER_READ_ISSUE, MEMORY_RESPONSE, MEMORY_TIMEOUT and FETCHING. -/
namespace Sys2Proof.Machine

/-- WRITE_HALF_ISSUE (R91, R119): the write half that has waited longest is issued, in every part state and while the pause is on. DESIGN CHOICE
(assumption 27): the issue is a command of its own also when no admitted request asks, so another command can come between the read half's
retirement and this; safe for a claim about every order of commands, unsafe for a claim that a run with such a command can happen. -/
def execWriteHalfIssue (s : State) : Host.Outcome State Fault Refusal := .next s.issueWriteHalf

/-- LOADER_READ_ISSUE (R119, R135, R142): the loader read asked for first is issued once a place is free. DESIGN CHOICE (assumption 25): the
issue is a command of its own also where a place is free when the read is asked for, so another command can come between the asking and the
issue; safe for a claim about every order of commands, unsafe for a claim that a run with such a command can happen. -/
def execLoaderReadIssue (s : State) : Host.Outcome State Fault Refusal :=
  match s.loader.reading with
  | none => .next s
  | some b =>
    match b.asked with
    | [] => .next s
    | addr :: rest =>
      if s.placeFree then
        .next
          (({ s with loader := { s.loader with reading := some { b with asked := rest } } } : State).issue
            .read addr (.single .s8) [] .loaderRead)
      else .next s

/-- MEMORY_RESPONSE (R121): taken for the oldest entry if the tags are equal, else discarded. -/
def execMemoryResponse (tag : BitVec 5) (okay : Bool) (data : BitVec 512) (s : State) : Host.Outcome State Fault Refusal :=
  match s.memory.outstanding with
  | [] => .next s
  | e :: _ =>
    if e.tx.tag = tag then
      .next (if okay then s.retireOkay e data else s.retireFailed e .memError .memError)
    else .next s

/-- MEMORY_TIMEOUT (R125): taken on the oldest entry when the timer, running, has reached 0. -/
def execMemoryTimeout (s : State) : Host.Outcome State Fault Refusal := .next s.memoryTimeout

/-- FETCHING (R141): once the outstanding list is empty and every tally slot is FREE, DRAINING passes to FETCHING and the read of the block
begins. -/
def execFetching (s : State) : Host.Outcome State Fault Refusal :=
  if s.loader.part = .draining ∧ s.drained then .next { s with loader := s.loader.startFetch } else .next s

end Sys2Proof.Machine
end

