-- ==== Sys2Proof/Machine/Resets.lean ====
section
/-! DEFINITION. Resets.lean: POWER_ON_RESET, PORT_RESET and PRST_N_DEASSERTED. -/
namespace Sys2Proof.Machine

/-- A front end after power-on reset whose PRST_n line is found as `asserted` says (R102, R109). -/
def Port.atPowerOn (asserted : Bool) : Port := { Port.powerOn with resetAsserted := asserted }

/-- POWER_ON_RESET (R129): every block takes its power-on values, the straps are sampled (R128), a PRST_n found asserted takes no port
reset but keeps its port closed (R109), the link waits if CS_n is found low (R163), and the start-up read of the policy block begins
(R130, R135). The queue of commands is not the part's and stays. -/
def execPowerOnReset (pbase ownp : Fin 4) (prst : BitVec 4) (csLow : Bool) (s : State) :
    Host.Outcome State Fault Refusal :=
  .next
    { State.reset with
      ports :=
        { e0 := Port.atPowerOn (prst.getLsbD 0), e1 := Port.atPowerOn (prst.getLsbD 1)
          e2 := Port.atPowerOn (prst.getLsbD 2), e3 := Port.atPowerOn (prst.getLsbD 3) }
      loader :=
        { State.reset.loader with
          pbase := pbase, ownp := ownp, reading := some (BlockRead.start (Config.policyBase pbase)) }
      link := { pause := false, frame := if csLow then .awaitRise else .between }
      pending := s.pending }

/-- A port reset between an AGENT frame's snapshot and its completion cancels the frame's clear for an agent of the port (R60). -/
def LinkFrame.cancelClear (f : LinkFrame) (p : PortIx) : LinkFrame :=
  match f with
  | .between => .between
  | .awaitRise => .awaitRise
  | .replied st data (.lowerCounters a n k) =>
    if portOf a = p then .replied st data .clearCancelled else .replied st data (.lowerCounters a n k)
  | .replied st data .nothing => .replied st data .nothing
  | .replied st data (.clearCauses b) => .replied st data (.clearCauses b)
  | .replied st data .clearCancelled => .replied st data .clearCancelled

/-- The port reset of port `p`, in the steps of R108. -/
def State.portReset (s : State) (p : PortIx) : State :=
  let s1 := s.updPort p Port.reset
  let s2 : State := { s1 with link := { s1.link with frame := s1.link.frame.cancelClear p } }
  let s3 := s2.takeMonitor (s2.monitor.portReset p s2.loader.entitlementLimit)
  s3.offer (.ofControl (some (agentOf p 0)) .portReset)

/-- PORT_RESET (R108): taken at the assertion of the line, and not repeated while it stays asserted (R109). -/
def execPortReset (p : PortIx) (s : State) : Host.Outcome State Fault Refusal :=
  if (s.ports.get p).resetAsserted then .next s else .next (s.portReset p)

/-- PRST_N_DEASSERTED (R109): the port accepts requests again; its epoch keeps its value. -/
def execPrstDeasserted (p : PortIx) (s : State) : Host.Outcome State Fault Refusal :=
  .next (s.updPort p fun q => { q with resetAsserted := false })

end Sys2Proof.Machine
end

