-- ==== Sys2Proof/Machine/Timers.lean ====
section
/-! DEFINITION. Timers.lean: TIME_BASE_TICK, LEASE_EXPIRY, ENTITLEMENT_EXPIRY and HOLD_LIMIT_EXPIRY. A tick lowers the counts; what
runs out at it is taken by the expiry commands that follow it in any order, and in any case before the next tick and before any guarded
request is admitted (assumption 2). -/
namespace Sys2Proof.Machine

/-- One microsecond passes for every block that counts time (R30, R72, R79, R124, R146). -/
def State.countDown (s : State) : State :=
  { s with
    capture := { s.capture with timeBase := s.capture.timeBase + 1 }
    monitor := s.monitor.tick
    memory := { s.memory with timer := s.memory.timer.map (· - 1) } }

/-- TIME_BASE_TICK (R146): whatever ran out at the last tick and has not been taken is taken, then the time base advances, and every lease,
entitlement and hold, and the running memory-timeout timer, count down (R30, R72, R79, R124). -/
def execTimeBaseTick (s : State) : Host.Outcome State Fault Refusal := .next s.takeRunOuts.memoryTimeout.countDown

/-- LEASE_EXPIRY (R31) of the entry of `a` on `c`, if its lease has run out. -/
def execLeaseExpiry (a : Agent) (c : Addr) (s : State) : Host.Outcome State Fault Refusal := .next (s.leaseExpiry a c)

/-- ENTITLEMENT_EXPIRY (R75) of slot `i`, if its entitlement has run out. -/
def execEntitlementExpiry (i : SlotIx) (s : State) : Host.Outcome State Fault Refusal := .next (s.entitlementExpiry i)

/-- HOLD_LIMIT_EXPIRY (R79) of slot `i`, if its hold limit has run out. -/
def execHoldLimitExpiry (i : SlotIx) (s : State) : Host.Outcome State Fault Refusal := .next (s.holdExpiry i)

end Sys2Proof.Machine
end

