-- ==== Sys2Proof/Machine/Traffic.lean ====
section
/-! DEFINITION. Traffic.lean: ACCEPTANCE, ADMISSION and RESPONSE_DEPARTURE: the requests of the masters from the port to the response. -/
namespace Sys2Proof.Machine

/-- ACCEPTANCE (R103): the request is taken when PRST_n is deasserted and the window has room; else it stays with the master. -/
def execAcceptance (p : PortIx) (r : Req) (s : State) : Host.Outcome State Fault Refusal :=
  if (s.ports.get p).accepts then .next (s.updPort p fun q => q.accept r) else .next s

/-! ### The admission arbiter (R112, R113) -/

/-- Do the conditions of the request's row of R112 hold? -/
def State.resourcesFree (s : State) (c : Classified) : Bool :=
  match c.disp with
  | .answer _ => true
  | .forward => s.placeFree
  | .guardedRead => s.placeFree
  | .guardedWrite => s.placeFree
  | .tallyRead => s.placeFree && !s.tally.busy c.cell
  | .tallyWrite => s.placeFree && s.tally.freeSlot.isSome && !s.tally.busy c.cell

/-- Does the arbiter admit at all: part state RUNNING and the pause off (R112, R115)? -/
def State.admits (s : State) : Bool := decide (s.loader.part = .running) && !s.link.pause

/-- A grant: the port, its head request, and the request's classification. -/
structure Grant where
  port : PortIx
  acc : Accepted
  cls : Classified
deriving DecidableEq, Repr

/-- The head request of port `p`, if there is one and it is admissible (R112). -/
def State.candidate (s : State) (p : PortIx) : Option Grant :=
  match (s.ports.get p).queue with
  | [] => none
  | acc :: _ =>
    let c := s.loader.classify p acc.req
    if s.admits && s.resourcesFree c then some { port := p, acc := acc, cls := c } else none

/-- The grant: the first port with an admissible head, from the pointer on (R113). -/
def State.winner (s : State) : Option Grant :=
  ([0, 1, 2, 3] : List (Fin 4)).findSome? fun k => s.candidate (s.pointer + k)

/-! ### The effects of a grant (R114) -/

/-- Lease of the GUARDED region a request was classified in (R132). -/
def RegionKind.lease : RegionKind → Nat
  | .guarded lease _ _ => lease
  | .openRegion => 0
  | .tally _ => 0
  | .fenced _ => 0

/-- Hold limit of the GUARDED region a request was classified in (R132). -/
def RegionKind.holdLimit : RegionKind → Nat
  | .guarded _ hold _ => hold
  | .openRegion => 0
  | .tally _ => 0
  | .fenced _ => 0

/-- Threshold of the GUARDED region a request was classified in (R132). -/
def RegionKind.threshold : RegionKind → Nat
  | .guarded _ _ threshold => threshold
  | .openRegion => 0
  | .tally _ => 0
  | .fenced _ => 0

/-- Tally mode of the TALLY region a request was classified in (R132). -/
def RegionKind.tallyMode : RegionKind → TallyMode
  | .tally mode => mode
  | .openRegion => .wrap
  | .guarded _ _ _ => .wrap
  | .fenced _ => .wrap

/-- The index of the region a request was classified in; guarded and tally requests always lie in a region (R12). -/
def RegionIx.index : RegionIx → Nat
  | .region i => i
  | .default => 0

/-- The owner of a request's transaction (R117). -/
def Grant.owner (g : Grant) : Owner :=
  { agent := g.cls.agent, epoch := g.acc.epoch, cell := g.cls.cell, region := g.cls.region }

/-- The request's transaction is issued, behind every waiting write half (R14, R119). -/
def State.issueRequest (s : State) (g : Grant) : State :=
  s.issueWriteHalves.issue g.acc.req.dir g.acc.req.addr g.acc.req.len g.acc.req.payload
    (.agentRequest g.owner g.acc.id g.cls.disp g.cls.trigger)

/-- The tally a TALLY_WRITE becomes (R87), its read half not yet issued. -/
def Grant.newTally (g : Grant) : Tally :=
  { phase := .reading
    agent := g.cls.agent
    cell := g.cls.cell
    region := g.cls.region.index
    offset := (g.acc.req.addr - g.cls.cell).toNat
    width := widthOf g.acc.req.len
    addend := BitVec.ofNat 64 (leNat g.acc.req.payload)
    mode := g.cls.kind.tallyMode
    epoch := g.acc.epoch
    tag := none
    id := g.acc.id }

/-- The tally engine takes a TALLY_WRITE into slot `i`, and the memory port issues its read half (R87, R88). -/
def State.takeTally (s : State) (g : Grant) (i : SlotIx) : State :=
  let s1 := s.issueWriteHalves
  let t : Tally := { g.newTally with tag := some s1.memory.nextTag }
  ({ s1 with tally := s1.tally.setSlot i (some t) } : State).issue .read t.addr t.width.len [] (.tallyRead t.owner i)

/-- What the monitor does at a GUARDED_READ (R23), with the lease and the hold limit of the region of the read. -/
def State.readStep (s : State) (g : Grant) : MonitorStep :=
  s.monitor.guardedRead g.cls.agent g.cls.cell g.cls.region.index g.cls.kind.lease g.cls.kind.holdLimit

/-- What the monitor decides at a GUARDED_WRITE (R43), with the threshold of the region of the write and the live entitlement limit. -/
def State.writeStep (s : State) (g : Grant) : WriteStep :=
  s.monitor.guardedWrite g.cls.agent g.cls.cell g.cls.region g.cls.kind.threshold s.loader.entitlementLimit

/-- A GUARDED_READ takes its effects (R23). -/
def State.takeGuardedRead (s : State) (g : Grant) : State := (s.takeMonitor (s.readStep g)).issueRequest g

/-- A GUARDED_WRITE takes its effects (R43): a refusal is answered at once (R55), a commit is issued (R51). -/
def State.takeGuardedWrite (s : State) (g : Grant) : State :=
  match (s.writeStep g).refusal with
  | some k => (s.respond g.port g.acc.id k []).takeMonitor (s.writeStep g).step
  | none => (s.takeMonitor (s.writeStep g).step).issueRequest g

/-- A grant takes its effects: monitor, tally engine, memory port (R114). Before it takes a guarded request the monitor takes the expiries of
what ran out at the last tick, since a tick taken first ends the entry, the entitlement or the hold (R30, R72, R79; assumption 2). -/
def State.grantEffects (s : State) (g : Grant) : State :=
  match g.cls.disp with
  | .answer k =>
    (s.respond g.port g.acc.id k []).takeMonitor
      (s.monitor.answer g.cls.agent g.cls.dir g.cls.cell g.cls.region k)
  | .forward => s.issueRequest g
  | .tallyRead => s.issueRequest g
  | .guardedRead => s.takeRunOuts.takeGuardedRead g
  | .guardedWrite => s.takeRunOuts.takeGuardedWrite g
  | .tallyWrite =>
    match s.tally.freeSlot with
    | some i => s.takeTally g i
    | none => s

/-- The granted request leaves its queue, and the pointer moves past its port (R113, R114). -/
def State.leaveQueue (s : State) (g : Grant) : State :=
  { s.updPort g.port fun q => { q with queue := q.queue.drop 1 } with pointer := g.port + 1 }

/-- ADMISSION (R113, R114): one grant with all its effects; no grant while no head is admissible. -/
def execAdmission (s : State) : Host.Outcome State Fault Refusal :=
  match s.winner with
  | some g => .next ((s.leaveQueue g).grantEffects g)
  | none => .next s

/-- RESPONSE_DEPARTURE (R106): the master takes the READY response at the head; nothing leaves while the head is not READY. -/
def execResponseDeparture (p : PortIx) (s : State) : Host.Outcome State Fault Refusal :=
  .next (s.updPort p Port.depart)

end Sys2Proof.Machine
end

