-- ==== Sys2Proof/Machine/Dispatch.lean ====
section
/-! DEFINITION. Dispatch.lean: one arm for each command, each one direct call of its meaning. -/
namespace Sys2Proof.Machine

def exec (i : Instr) (s : State) : Host.Outcome State Fault Refusal :=
  match i with
  | .powerOnReset pbase ownp prst csLow => Sys2Proof.Machine.execPowerOnReset pbase ownp prst csLow s
  | .portReset p => Sys2Proof.Machine.execPortReset p s
  | .prstDeasserted p => Sys2Proof.Machine.execPrstDeasserted p s
  | .acceptance p r => Sys2Proof.Machine.execAcceptance p r s
  | .admission => Sys2Proof.Machine.execAdmission s
  | .writeHalfIssue => Sys2Proof.Machine.execWriteHalfIssue s
  | .loaderReadIssue => Sys2Proof.Machine.execLoaderReadIssue s
  | .memoryResponse tag okay data => Sys2Proof.Machine.execMemoryResponse tag okay data s
  | .memoryTimeout => Sys2Proof.Machine.execMemoryTimeout s
  | .fetching => Sys2Proof.Machine.execFetching s
  | .responseDeparture p => Sys2Proof.Machine.execResponseDeparture p s
  | .timeBaseTick => Sys2Proof.Machine.execTimeBaseTick s
  | .leaseExpiry a c => Sys2Proof.Machine.execLeaseExpiry a c s
  | .entitlementExpiry n => Sys2Proof.Machine.execEntitlementExpiry n s
  | .holdLimitExpiry n => Sys2Proof.Machine.execHoldLimitExpiry n s
  | .status => Sys2Proof.Machine.execStatus s
  | .causes => Sys2Proof.Machine.execCauses s
  | .causesCompletion => Sys2Proof.Machine.execCausesCompletion s
  | .setmask mask => Sys2Proof.Machine.execSetmask mask s
  | .agent number clear => Sys2Proof.Machine.execAgent number clear s
  | .agentClear => Sys2Proof.Machine.execAgentClear s
  | .reservations => Sys2Proof.Machine.execReservations s
  | .holds => Sys2Proof.Machine.execHolds s
  | .region index => Sys2Proof.Machine.execRegion index s
  | .captureSetup args => Sys2Proof.Machine.execCaptureSetup args s
  | .captureArm => Sys2Proof.Machine.execCaptureArm s
  | .captureStop => Sys2Proof.Machine.execCaptureStop s
  | .captureRead start count => Sys2Proof.Machine.execCaptureRead start count s
  | .monitorReset => Sys2Proof.Machine.execMonitorReset s
  | .halt => Sys2Proof.Machine.execHalt s
  | .resume => Sys2Proof.Machine.execResume s
  | .badcmd byte => Sys2Proof.Machine.execBadcmd byte s
  | .frameCutShort => Sys2Proof.Machine.execFrameCutShort s
  | .frameCutShortAfterPointOfEffect => Sys2Proof.Machine.execFrameCutShortAfterPointOfEffect s

end Sys2Proof.Machine
end

