-- ==== Sys2Proof/Safety.lean ====
section
/-! DEFINITION. Safety.lean: the laws the manual states of the part's state, block by block. Each is a plain proposition over a state, so
that a claim can say "from every state that meets the law, a step gives a state that meets it". -/
namespace Sys2Proof

/-- Does the command come over the maintenance link (chapter 9)? -/
def Instr.overLink : Instr → Bool
  | .powerOnReset _ _ _ _ => false
  | .portReset _ => false
  | .prstDeasserted _ => false
  | .acceptance _ _ => false
  | .admission => false
  | .writeHalfIssue => false
  | .loaderReadIssue => false
  | .memoryResponse _ _ _ => false
  | .memoryTimeout => false
  | .fetching => false
  | .responseDeparture _ => false
  | .timeBaseTick => false
  | .leaseExpiry _ _ => false
  | .entitlementExpiry _ => false
  | .holdLimitExpiry _ => false
  | .status => true
  | .causes => true
  | .causesCompletion => true
  | .setmask _ => true
  | .agent _ _ => true
  | .agentClear => true
  | .reservations => true
  | .holds => true
  | .region _ => true
  | .captureSetup _ => true
  | .captureArm => true
  | .captureStop => true
  | .captureRead _ _ => true
  | .monitorReset => true
  | .halt => true
  | .resume => true
  | .badcmd _ => true
  | .frameCutShort => true
  | .frameCutShortAfterPointOfEffect => true

end Sys2Proof

namespace Sys2Proof.Machine

/-! ### Terms that several claims share -/

/-- The state in which a frame has reached its point of effect with this reply, an earlier frame having ended, and nothing else has
changed. -/
def State.answered (s : State) (st : LinkStatus) (data : List Byte) (c : Completion) : State :=
  { s with link := { s.link with frame := .replied st data c }, attention := { s.attention with marks := none } }

/-- The state after the commands, taken one after another. -/
def State.afterAll (s : State) (cs : List Instr) : State :=
  cs.foldl
    (fun x c =>
      match exec c x with
      | .next t => t
      | .fault _ => x
      | .refused _ => x)
    s

/-- Has the remaining time of the slot run out? -/
def HoldSlot.ranOut : HoldSlot → Bool
  | .free => false
  | .entitled _ n => n == 0
  | .holding _ _ _ n => n == 0

/-- Every lease and every slot's remaining time stands in its range, which begins at 1 (R20, R64): nothing that ran out at the last tick is
still to be taken. -/
def Monitor.noneRunOut (m : Monitor) : Prop := (∀ e ∈ m.table, e.lease ≠ 0) ∧ ∀ i, (m.slots.get i).ranOut = false

/-- The mark a port reset gives to the entry of an admitted request (R108, step 3): finished if it was READY or already finished. -/
def EntryState.markAtReset (e : EntryState) : Bool :=
  match e with
  | .pending => false
  | .ready _ => true
  | .discard f => f

/-- The response of the request is formed in a front end that the request has just left for admission. -/
def Port.answeredHead (q : Port) (id : Nat) (k : Cause) : Port :=
  ({ q with queue := q.queue.tail } : Port).complete id { cause := k, data := [] }

/-! ### The front ends (R102, R103) -/

/-- The acceptance numbers of a port's order list rise, and stay below the next one: acceptance order. -/
def Port.inOrder (q : Port) : Prop :=
  (q.order.map (·.acc.id)).Pairwise (· < ·) ∧ ∀ e ∈ q.order, e.acc.id < q.nextId

/-- Is work of the request left: PENDING, or DISCARD with the mark not finished (R105)? -/
def EntryState.unfinished (e : EntryState) : Bool :=
  match e with
  | .pending => true
  | .ready _ => false
  | .discard f => !f

/-- The law of a front end: the window is at most 8 (R102); the order list stands in acceptance order; the requests of the queue are its
newest entries, still PENDING (R102, R104); no finished DISCARD entry stands at the head (R107); a PENDING entry was accepted under the
port's epoch (R108, R111). -/
def Port.lawful (q : Port) : Prop :=
  q.window ≤ Config.windowSize ∧ q.inOrder
    ∧ (∃ admitted, q.order = admitted ++ q.queue.map fun acc => { acc := acc, state := .pending })
    ∧ (∀ e, q.order.head? = some e → e.state.isFinished = false)
    ∧ ∀ e ∈ q.order, e.state = .pending → e.acc.epoch = q.epoch

/-- The request references of the work in flight, as port and acceptance number: one for each agent request in the outstanding list and
one for each tally slot in use (R105, R117). -/
def State.workRefs (s : State) : List (PortIx × Nat) :=
  (s.memory.outstanding.filterMap fun e =>
    match e.origin with
    | .agentRequest o id _ _ => some (portOf o.agent, id)
    | .tallyRead _ _ => none
    | .tallyWrite _ _ => none
    | .loaderRead => none)
  ++ s.tally.slots.toList.filterMap fun t => t.map fun x => (portOf x.agent, x.id)

/-- The law of responses, as a law of states (R105, R106): every front end is lawful; each piece of work in flight belongs to one admitted,
unfinished order-list entry, and each such entry has exactly one piece of work; a tally carries the epoch of its request. -/
def State.responsesLawful (s : State) : Prop :=
  (∀ p, (s.ports.get p).lawful)
    ∧ s.workRefs.Nodup
    ∧ (∀ p id, (p, id) ∈ s.workRefs ↔
        ∃ e ∈ (s.ports.get p).order,
          e.acc.id = id ∧ e.state.unfinished = true ∧ ∀ acc ∈ (s.ports.get p).queue, acc.id ≠ id)
    ∧ ∀ i t, s.tally.slots.get i = some t →
        ∃ e ∈ (s.ports.get (portOf t.agent)).order, e.acc.id = t.id ∧ e.acc.epoch = t.epoch

/-! ### The reservation monitor -/

/-- The law of the reservation table (R21): at most 24 entries, never two of the same agent and cell, at most 4 of one agent. -/
def Monitor.tableLawful (m : Monitor) : Prop :=
  m.table.length ≤ Config.tableSize
    ∧ m.table.Pairwise (fun e f => ¬(e.agent = f.agent ∧ e.cell = f.cell))
    ∧ ∀ a, m.entriesOf a ≤ Config.agentEntries

/-- The causes a loss entry can have (R35). -/
def Cause.isLoss : Cause → Bool
  | .broken => true
  | .expired => true
  | .evicted => true
  | .displaced => true
  | .dropped => true
  | .none => false
  | .noReservation => false
  | .held => false
  | .fenced => false
  | .misaligned => false
  | .straddle => false
  | .burstInGuard => false
  | .narrowTally => false
  | .memError => false
  | .memTimeout => false
  | .saturated => false

/-- The law of the loss lists (R35): at most 4 entries, never two for one cell, only loss causes, and none for a cell on which the agent
has a table entry, nor for a cell it holds (R37). -/
def Monitor.lossLawful (m : Monitor) : Prop :=
  ∀ a,
    (m.ctx a).loss.length ≤ Config.lossSize
      ∧ (m.ctx a).loss.Pairwise (fun x y => x.cell ≠ y.cell)
      ∧ (∀ x ∈ (m.ctx a).loss, x.cause.isLoss = true)
      ∧ (∀ x ∈ (m.ctx a).loss, m.entry a x.cell = none)
      ∧ (∀ x ∈ (m.ctx a).loss, m.findSlot (·.holds a x.cell) = none)

/-- The law of the hold slots (R65): no agent occupies two slots, no cell is HOLDING in two, and an agent's state is ENTITLED or HOLDING
exactly when it occupies a slot in that state. -/
def Monitor.slotsLawful (m : Monitor) : Prop :=
  (∀ i j a, (m.slots.get i).agent? = some a → (m.slots.get j).agent? = some a → i = j)
    ∧ (∀ i j c, (m.slots.get i).cell? = some c → (m.slots.get j).cell? = some c → i = j)
    ∧ (∀ a, (m.ctx a).state = .entitled ↔ ∃ i, (m.slots.get i).entitles a = true)
    ∧ (∀ a, (m.ctx a).state = .holding ↔ ∃ i c, (m.slots.get i).holds a c = true)

/-- The law of the wait list (R70): no agent twice, an agent is in the list exactly when it is WAITING, and while the list is not empty all
four slots are in use. -/
def Monitor.waitLawful (m : Monitor) : Prop :=
  m.waitList.Nodup
    ∧ (∀ a, (m.ctx a).state = .waiting ↔ a ∈ m.waitList)
    ∧ (m.waitList ≠ [] → ∀ i, (m.slots.get i).isFree = false)

/-- A holder has no table entry on the cell it holds (R25). -/
def Monitor.holdersLawful (m : Monitor) : Prop :=
  ∀ i a c, (m.slots.get i).holds a c = true → m.entry a c = none

/-- The counters stay in their ranges (R58). -/
def Monitor.countersLawful (m : Monitor) : Prop :=
  ∀ a, (m.ctx a).streak ≤ Config.streakTop ∧ (m.ctx a).commits ≤ Config.counterTop
    ∧ (m.ctx a).refusals ≤ Config.counterTop

/-- All laws of the reservation monitor together. -/
def Monitor.lawful (m : Monitor) : Prop :=
  m.tableLawful ∧ m.lossLawful ∧ m.slotsLawful ∧ m.waitLawful ∧ m.holdersLawful ∧ m.countersLawful

/-! ### The tally engine -/

/-- The tallies in flight are on different cells (R86), and the write halves waiting are those of the WRITING slots without a tag, each
once (R91). -/
def TallyEngine.lawful (e : TallyEngine) : Prop :=
  (∀ i j t u, e.slots.get i = some t → e.slots.get j = some u → t.cell = u.cell → i = j)
    ∧ e.waiting.Nodup
    ∧ ∀ i, i ∈ e.waiting ↔ ∃ t, e.slots.get i = some t ∧ t.tag = none

/-- The halves in flight are those the slots say: an outstanding read half belongs to a READING slot that records its tag, an outstanding
write half to a WRITING one (R85, R88, R91). -/
def State.halvesLawful (s : State) : Prop :=
  ∀ e ∈ s.memory.outstanding,
    (∀ o i, e.origin = .tallyRead o i →
        ∃ t, s.tally.slots.get i = some t ∧ t.tag = some e.tx.tag ∧ t.phase = .reading)
      ∧ ∀ o i, e.origin = .tallyWrite o i →
        ∃ t v clamped, s.tally.slots.get i = some t ∧ t.tag = some e.tx.tag ∧ t.phase = .writing v clamped

/-- A slot without a tag is past its read half (R85). -/
def TallyEngine.phasesLawful (e : TallyEngine) : Prop :=
  ∀ i t, e.slots.get i = some t → t.tag = none → ∃ v clamped, t.phase = .writing v clamped

/-- The fields of a tally stand in their ranges (R85): the cell is a cell address, and the addressed bytes lie inside it. -/
def Tally.fieldsLawful (t : Tally) : Prop :=
  isCell t.cell = true
    ∧ match t.width with
      | .w4 => t.offset = 0 ∨ t.offset = 4
      | .w8 => t.offset = 0

/-- Does the kind make a TALLY region? -/
def RegionKind.isTally : RegionKind → Bool
  | .tally _ => true
  | .openRegion => false
  | .guarded _ _ _ => false
  | .fenced _ => false

/-- Does the byte address lie in a TALLY region of the live table? -/
def Loader.inTally (l : Loader) (a : Nat) : Bool := (l.kindOf (l.areaOf a)).isTally

/-- The cells of the slots lie in TALLY regions of the live table, with fields in range (R85); while a policy block is read no tally is in
flight (R100, R141); and a block is read only in LOADING and FETCHING (R135). -/
def State.tallyCellsLawful (s : State) : Prop :=
  (∀ i t, s.tally.slots.get i = some t → t.fieldsLawful ∧ s.loader.inTally t.cell.toNat = true)
    ∧ (s.loader.part = .loading ∨ s.loader.part = .fetching → ∀ i, s.tally.slots.get i = none)
    ∧ (s.loader.reading ≠ none → s.loader.part = .loading ∨ s.loader.part = .fetching)

/-- Does the transaction reach a byte of the cell? -/
def Transaction.touches (tx : Transaction) (c : Addr) : Bool :=
  decide (tx.addr.toNat ≤ c.toNat + 7) && decide (c.toNat < tx.addr.toNat + tx.len.bytes)

/-- The last transaction of the list that reaches the cell. -/
def lastTo (c : Addr) (txs : List Transaction) : Option Transaction := (txs.filter (·.touches c)).getLast?

/-- Is the transaction a half of the tally in the direction given (R88, R91)? -/
def Transaction.isHalf (tx : Transaction) (d : Dir) (t : Tally) : Prop :=
  tx.dir = d ∧ tx.addr = t.addr ∧ tx.len = t.width.len

/-- The last transaction issued to the cell of a tally in flight is its own half: the read half until its write half is issued, then the
write half (R88, R97). -/
def State.tallyHistoryLawful (s : State) : Prop :=
  ∀ i t, s.tally.slots.get i = some t →
    ∃ tx, lastTo t.cell s.memory.issued = some tx
      ∧ match t.phase, t.tag with
        | .reading, _ => tx.isHalf .read t
        | .writing _ _, none => tx.isHalf .read t
        | .writing _ _, some _ => tx.isHalf .write t

/-! ### The memory port -/

/-- The law of the memory port (R117): at most 16 places in use. -/
def State.placesLawful (s : State) : Prop := s.placesUsed ≤ Config.places

/-- The tags of the outstanding list are given in issue order: the entry at index `k` of `n` carries the tag counter less `n − k`
(R118). -/
def MemoryPort.tagsLawful (m : MemoryPort) : Prop :=
  ∀ k e, m.outstanding[k]? = some e → e.tx.tag + BitVec.ofNat 5 (m.outstanding.length - k) = m.nextTag

/-- The law of tally traffic: places, tags, slots, waiting write halves and outstanding halves agree (R85, R86, R91, R117, R118). -/
def State.tallyTrafficLawful (s : State) : Prop :=
  s.placesLawful ∧ s.memory.tagsLawful ∧ s.tally.lawful ∧ s.tally.phasesLawful ∧ s.halvesLawful

/-- The timer does not run while the list is empty (R124). -/
def MemoryPort.timerLawful (m : MemoryPort) : Prop := m.outstanding = [] → m.timer = none

/-! ### The policy loader -/

/-- The law of the live region table (R134): at most 16 regions, none overlapping another or the granule of the policy block. -/
def Loader.lawful (l : Loader) : Prop :=
  l.regions.length ≤ 16 ∧ noOverlaps l.regions = true ∧ l.regions.all (fun r => !r.covers l.policyGranule) = true

/-! ### The capture unit -/

/-- The law of the capture ring (R149): at most 256 records, their sequence numbers consecutive and ending one below the counter. -/
def Capture.lawful (c : Capture) : Prop :=
  c.ring.length ≤ Config.ringSize
    ∧ ∀ k x, c.ring[k]? = some x → x.seq + BitVec.ofNat 32 (c.ring.length - k) = c.nextSeq

/-! ### The link -/

/-- Renewal marks exist exactly while a CAUSES frame is past its point of effect and not yet ended (R172). -/
def State.marksLawful (s : State) : Prop :=
  s.attention.marks ≠ none ↔ ∃ st data shown, s.link.frame = .replied st data (.clearCauses shown)

/-! ### Agreement between the monitor and the live table -/

/-- Every table entry carries the region index its cell now has (R20), and while the part is LOADING there is none (R21). -/
def State.regionsAgree (s : State) : Prop :=
  (∀ e ∈ s.monitor.table, s.loader.areaOf e.cell.toNat = .region e.region)
    ∧ (s.loader.part = .loading → s.monitor.table = [])

end Sys2Proof.Machine
end

