-- ==== Sys2Proof/Certificates/Slice0/Obligations.lean ====
section
/-! DEFINITION. Obligations.lean: the statements about the part for the provers. In every statement that gives a next state as a record
update, the fields that are not named are those of the state updated: the frame is part of the equation. Hypotheses speak of the state
and the operands alone. -/
open Sys2Proof Sys2Proof.Machine

/-! ### The queue of commands -/

/-- A step takes the command at the front of the queue and runs its meaning on the state with the queue's rest. That an empty queue idles
is the model's choice (assumption 4). -/
def Obligations.StepTakesFrontCommand : Prop :=
  (∀ (c : Instr) (rest : List Instr) (s : State), s.pending = c :: rest → step s = exec c { s with pending := rest })
    ∧ ∀ s : State, s.pending = [] → step s = .next s

/-- Every command, in every state, answers a next state, and leaves the queue as it stands. That a command which the state does not enable
answers a next state too is the model's choice (assumption 1), and so is that POWER_ON_RESET keeps the queue (assumption 20). -/
def Obligations.EveryCommandAnswersNext : Prop :=
  ∀ (c : Instr) (s : State), ∃ t, exec c s = .next t ∧ t.pending = s.pending

/-! ### Resets -/

/-- What power-on reset leaves in every block (R61, R65, R70, R85, R102, R113, R117, R118, R124, R128, R129, R130, R135, R146, R149, R151, R159,
R163, R171, R173, R174), whatever the state before, with the policy base and the policy granule that each PBASE selects (R17, R128). That it keeps
the queue of commands is the model's choice (assumption 20), and so is that the header reads, asked for, issue only by later commands (assumption
25). -/
def Obligations.PowerOnResetValues : Prop :=
  ∀ (pbase ownp : Fin 4) (prst : BitVec 4) (csLow : Bool) (s : State),
    ∃ t, exec (.powerOnReset pbase ownp prst csLow) s = .next t
      ∧ (∀ p : PortIx, (t.ports.get p).queue = [] ∧ (t.ports.get p).order = [] ∧ (t.ports.get p).epoch = 0
          ∧ (t.ports.get p).resetAsserted = prst.getLsbD p.val)
      ∧ t.pointer = 0
      ∧ t.monitor.table = [] ∧ t.monitor.waitList = [] ∧ (∀ i, t.monitor.slots.get i = .free)
      ∧ (∀ a, t.monitor.ctx a
          = { state := .normal, streak := 0, commits := 0, refusals := 0, verdict := .none, loss := [] })
      ∧ (∀ i, t.tally.slots.get i = none) ∧ t.tally.waiting = []
      ∧ t.memory.outstanding = [] ∧ t.memory.nextTag = 0 ∧ t.memory.timer = none
      ∧ t.loader =
          { part := .loading, regions := [], generation := 0, entitlementLimit := 0, memoryTimeout := 1000, valid := false
            pbase := pbase, ownp := ownp
            reading := some
              { asked := [Config.policyBase pbase, Config.policyBase pbase + 8, Config.policyBase pbase + 16]
                bytes := [], count := none, failed := false } }
      ∧ t.loader.policyBase = Config.policyBase pbase
      ∧ ([0x0000FE00, 0x0007FE00, 0x001FFE00, 0xFFFFFE00] : List Nat)[pbase.val]? = some t.loader.policyBase.toNat
      ∧ ([0x0F, 0x7F, 0x1FF, 0xFFFFF] : List Nat)[pbase.val]? = some t.loader.policyGranule
      ∧ t.capture.timeBase = 0 ∧ t.capture.ring = [] ∧ t.capture.nextSeq = 0 ∧ t.capture.state = .off
      ∧ t.capture.matchCount = 0 ∧ t.capture.remaining = 0
      ∧ t.capture.setup.kindMask = 0xFFF ∧ t.capture.setup.regionMask = 0x1FFFF ∧ t.capture.setup.agentMask = 0xFFFF
      ∧ t.capture.setup.triggerKind = none ∧ t.capture.setup.agentMatchOn = false
      ∧ t.capture.setup.cellMatchOn = false ∧ t.capture.setup.count = 1 ∧ t.capture.setup.position = .lead
      ∧ t.link = { pause := false, frame := if csLow then .awaitRise else .between }
      ∧ t.attention.flags = 0 ∧ t.attention.mask = 0 ∧ t.attnLow = false
      ∧ t.pending = s.pending

/-- The laws of Safety.lean hold right after reset. State.reset is the reset of a board with both straps 0, every PRST_n deasserted and CS_n high,
which is the model's choice (assumption 3). -/
def Obligations.ResetMeetsTheLaws : Prop :=
  State.reset.responsesLawful ∧ State.reset.monitor.lawful ∧ State.reset.tallyTrafficLawful ∧ State.reset.tallyCellsLawful
    ∧ State.reset.tallyHistoryLawful ∧ State.reset.memory.timerLawful ∧ State.reset.loader.lawful
    ∧ State.reset.capture.lawful ∧ State.reset.regionsAgree ∧ State.reset.marksLawful

/-- What a port reset does to the front end (R108, R109, R111), with the order list written as its admitted entries and those of the queue
(R102): the queue is removed with its entries, every admitted entry becomes DISCARD with its mark, finished heads leave, the epoch rises;
the other ports and blocks stay, but for the monitor's part and the records (the next statement), and the clear of an AGENT frame for an
agent of the port (R60). -/
def Obligations.PortResetFrontEnd : Prop :=
  ∀ (p : PortIx) (s : State) (admitted : List OrderEntry),
    (s.ports.get p).resetAsserted = false →
    (s.ports.get p).order = admitted ++ (s.ports.get p).queue.map (fun acc => { acc := acc, state := .pending }) →
    (s.ports.get p).inOrder →
    ∃ t gone, exec (.portReset p) s = .next t
      ∧ (t.ports.get p).resetAsserted = true ∧ (t.ports.get p).queue = []
      ∧ (t.ports.get p).epoch = (s.ports.get p).epoch + 1 ∧ (t.ports.get p).taken = (s.ports.get p).taken
      ∧ gone ++ (t.ports.get p).order
          = admitted.map (fun e => { acc := e.acc, state := .discard e.state.markAtReset })
      ∧ (∀ e ∈ gone, e.state = .discard true)
      ∧ (∀ e, (t.ports.get p).order.head? = some e → e.state = .discard false)
      ∧ (∀ r, r ≠ p → t.ports.get r = s.ports.get r)
      ∧ t.pointer = s.pointer ∧ t.tally = s.tally ∧ t.memory = s.memory ∧ t.loader = s.loader ∧ t.pending = s.pending
      ∧ t.link = { s.link with frame := s.link.frame.cancelClear p }

/-- What a port reset does to the monitor and which records it offers (R40, R62, R82, R108 step 6): the agents of the port lose their
entries, loss lists, contexts, places in the wait list and slots; each freed slot, in slot order, takes the next waiter of another port;
nothing else of the monitor changes. -/
def Obligations.PortResetMonitor : Prop :=
  ∀ (p : PortIx) (s : State) (left : List Agent) (freed : List SlotIx),
    (s.ports.get p).resetAsserted = false → s.monitor.lawful →
    left = s.monitor.waitList.filter (fun a => portOf a != p) →
    freed = ([0, 1, 2, 3] : List SlotIx).filter (fun i => (s.monitor.slots.get i).agent?.any (fun a => portOf a == p)) →
    ∃ t, exec (.portReset p) s = .next t
      ∧ t.monitor.table = s.monitor.table.filter (fun e => portOf e.agent != p)
      ∧ t.monitor.waitList = left.drop freed.length
      ∧ (∀ i, i ∉ freed → t.monitor.slots.get i = s.monitor.slots.get i)
      ∧ (∀ (k : Nat) (i : SlotIx), freed[k]? = some i → t.monitor.slots.get i =
          match left[k]? with
          | some w => .entitled w s.loader.entitlementLimit
          | none => .free)
      ∧ (∀ a, t.monitor.ctx a =
          if portOf a = p then { state := .normal, streak := 0, commits := 0, refusals := 0, verdict := .none, loss := [] }
          else if a ∈ left.take freed.length then { s.monitor.ctx a with state := .entitled }
          else s.monitor.ctx a)
      ∧ t.capture = (s.offerAll ((left.take freed.length).map Record.ofEntitle
          ++ [.ofControl (some (agentOf p 0)) .portReset])).capture
      ∧ t.attention = (s.offerAll ((left.take freed.length).map Record.ofEntitle
          ++ [.ofControl (some (agentOf p 0)) .portReset])).attention

/-- A reset line that stays asserted takes no further port reset, and its deassertion opens the port again and changes nothing else
(R109). -/
def Obligations.ResetLineHeldAndReleased : Prop :=
  ∀ (p : PortIx) (s : State),
    ((s.ports.get p).resetAsserted = true → exec (.portReset p) s = .next s)
      ∧ exec (.prstDeasserted p) s
          = .next { s with ports := s.ports.set p { s.ports.get p with resetAsserted := false } }

/-! ### Acceptance, responses and their departure -/

/-- A request is accepted exactly when the line is deasserted and the order list has fewer than 8 entries; it joins the queue and the order
list PENDING with the port epoch (R103). A READY head leaves to the master, with the finished DISCARD entries behind it, and nothing leaves
from behind another head (R106, R107). The model's choices in this: a departure from a head that is not READY changes nothing (assumption 1);
finished entries leave in the same step (assumption 22); the acceptance numbers and the list of responses taken (assumptions 6, 7). -/
def Obligations.AcceptanceAndDeparture : Prop :=
  (∀ (p : PortIx) (req : Req) (s : State) (q : Port), q = s.ports.get p →
      exec (.acceptance p req) s =
        if q.resetAsserted = false ∧ q.order.length < 8 then
          .next { s with
            ports := s.ports.set p
              { q with
                queue := q.queue ++ [{ id := q.nextId, req := req, epoch := q.epoch }]
                order := q.order ++ [{ acc := { id := q.nextId, req := req, epoch := q.epoch }, state := .pending }]
                nextId := q.nextId + 1 } }
        else .next s)
    ∧ ∀ (p : PortIx) (s : State) (q : Port), q = s.ports.get p →
      (∀ e rest r, q.order = e :: rest → e.state = .ready r →
          exec (.responseDeparture p) s =
            .next { s with
              ports := s.ports.set p
                { q with order := rest.dropWhile (fun x => x.state == .discard true), taken := q.taken ++ [r] } })
        ∧ ((∀ e r, q.order.head? = some e → e.state ≠ .ready r) → exec (.responseDeparture p) s = .next s)

/-- A formed response is kept unchanged until it leaves from the head (R105, R106): whatever command is taken, a READY entry stays as it is,
or it was the head and its response is the newest one the master took, unless the port or the part is reset. -/
def Obligations.ReadyResponseIsFinal : Prop :=
  ∀ (c : Instr) (s t : State) (p : PortIx) (e : OrderEntry) (r : Response),
    exec c s = .next t → e ∈ (s.ports.get p).order → e.state = .ready r →
    e ∈ (t.ports.get p).order
      ∨ ((s.ports.get p).order.head? = some e ∧ (t.ports.get p).taken = (s.ports.get p).taken ++ [r])
      ∨ c = .portReset p ∨ ∃ pbase ownp prst csLow, c = .powerOnReset pbase ownp prst csLow

/-- The law of responses (R102, R105 to R107) is kept by every step: each piece of work in flight belongs to exactly one unfinished entry,
and each admitted unfinished entry has exactly one piece of work. -/
def Obligations.ResponsesLawKept : Prop :=
  ∀ s t : State, s.responsesLawful → step s = .next t → t.responsesLawful

/-! ### Admission -/

/-- The maintenance pause is what HALT and RESUME set (R170), and no request is admitted while it is on or the part state is not RUNNING
(R115): ADMISSION then changes nothing. -/
def Obligations.PauseStopsAdmission : Prop :=
  (∀ s : State, s.link.frame ≠ .awaitRise →
      exec .halt s = .next { s.answered .ack [] .nothing with link := { pause := true, frame := .replied .ack [] .nothing } }
        ∧ exec .resume s
          = .next { s.answered .ack [] .nothing with link := { pause := false, frame := .replied .ack [] .nothing } })
    ∧ ∀ s : State, s.link.pause = true ∨ s.loader.part ≠ .running → exec .admission s = .next s

/-- A head request is admissible when the part is RUNNING, the pause is off and the resources of its row are free (R112); the grant goes to
the first port with an admissible head from the pointer on, the pointer moves past it, and the request leaves its queue (R113); the other
ports stay as they are. Without an admissible head nothing changes. -/
def Obligations.GrantGoesRoundRobin : Prop :=
  (∀ (s : State) (p : PortIx) (g : Grant), s.candidate p = some g ↔
      ∃ acc rest, (s.ports.get p).queue = acc :: rest ∧ g = { port := p, acc := acc, cls := s.loader.classify p acc.req }
        ∧ s.loader.part = .running ∧ s.link.pause = false
        ∧ match g.cls.disp with
          | .answer _ => True
          | .forward => s.placesUsed < 16
          | .guardedRead => s.placesUsed < 16
          | .guardedWrite => s.placesUsed < 16
          | .tallyRead => s.placesUsed < 16 ∧ ∀ i t, s.tally.slots.get i = some t → t.cell ≠ g.cls.cell
          | .tallyWrite => s.placesUsed < 16 ∧ (∃ i, s.tally.slots.get i = none)
              ∧ ∀ i t, s.tally.slots.get i = some t → t.cell ≠ g.cls.cell)
    ∧ (∀ s : State, (∀ p, s.candidate p = none) → exec .admission s = .next s)
    ∧ ∀ (s : State) (k : Fin 4) (g : Grant),
        s.candidate (s.pointer + k) = some g → (∀ j, j < k → s.candidate (s.pointer + j) = none) →
        ∃ t, exec .admission s = .next t ∧ t.pointer = s.pointer + k + 1
          ∧ (t.ports.get (s.pointer + k)).queue = (s.ports.get (s.pointer + k)).queue.tail
          ∧ (∀ p, p ≠ s.pointer + k → t.ports.get p = s.ports.get p)
          ∧ t.loader = s.loader ∧ t.link = s.link ∧ t.pending = s.pending

/-- A port whose head stays admissible is granted within four grants (R113): each grant that goes to another port brings the pointer nearer
to it. -/
def Obligations.WaitingPortIsServed : Prop :=
  ∀ (s : State) (p : PortIx) (g : Grant), s.candidate p = some g →
    ∃ t, exec .admission s = .next t
      ∧ ((t.ports.get p).queue = (s.ports.get p).queue.tail
        ∨ ((t.ports.get p).queue = (s.ports.get p).queue ∧ (p - t.pointer).val < (p - s.pointer).val))


/-! ### The effects of a grant

The statements about guarded requests speak of a monitor in which nothing that ran out is still to be taken (`Monitor.noneRunOut`: every
remaining time in its range of R20 and R64); TickCountsDown says that any other monitor first takes its expiries, which brings it there. -/

/-- A request answered at classification (R13): its entry is answered at once with the check's cause, a WRITE sets the verdict, FENCED counts
a refusal, one record is offered (REFUSE for FENCED, else FAULT), and nothing else changes: no transaction, no slot, no reservation, no
flag but FROZEN if the record freezes the capture. -/
def Obligations.AnswerAdmitted : Prop :=
  ∀ (s : State) (g : Grant) (k : Cause), s.winner = some g → g.cls.disp = .answer k →
    ∃ m : Monitor,
      exec .admission s =
        .next { s.offer (if k = .fenced then .ofRefuse g.cls.agent g.cls.cell g.cls.region k
                         else .ofFault g.cls.agent g.cls.cell g.cls.region k) with
          ports := s.ports.set g.port ((s.ports.get g.port).answeredHead g.acc.id k)
          pointer := g.port + 1
          monitor := m }
      ∧ m.table = s.monitor.table ∧ m.slots = s.monitor.slots ∧ m.waitList = s.monitor.waitList
      ∧ ∀ a, m.ctx a =
          if a = g.cls.agent then
            { s.monitor.ctx a with
              verdict := if g.acc.req.dir = .write then k else (s.monitor.ctx a).verdict
              refusals :=
                if k = .fenced ∧ (s.monitor.ctx a).refusals < 0xFFFF then (s.monitor.ctx a).refusals + 1
                else (s.monitor.ctx a).refusals }
          else s.monitor.ctx a

/-- A FORWARD or TALLY_READ request with no write half waiting (R14, R96, R117 to R119, R124): one transaction of the request's kind,
address, length and write data is issued with the next tag, joins the outstanding list, starts the timer of an empty list, and nothing else
changes. -/
def Obligations.ForwardAdmitted : Prop :=
  ∀ (s : State) (g : Grant) (tx : Transaction), s.winner = some g → g.cls.disp = .forward ∨ g.cls.disp = .tallyRead →
    s.tally.waiting = [] →
    tx = { tag := s.memory.nextTag, dir := g.acc.req.dir, addr := g.acc.req.addr, len := g.acc.req.len
           data := match g.acc.req.dir with
             | .read => []
             | .write => laneBytes g.acc.req.len.bytes g.acc.req.data } →
    exec .admission s =
      .next { s with
        ports := s.ports.set g.port { s.ports.get g.port with queue := (s.ports.get g.port).queue.tail }
        pointer := g.port + 1
        memory :=
          { outstanding := s.memory.outstanding ++
              [{ tx := tx
                 origin := .agentRequest
                   { agent := g.cls.agent, epoch := g.acc.epoch, cell := g.cls.cell, region := g.cls.region }
                   g.acc.id g.cls.disp g.cls.trigger }]
            nextTag := s.memory.nextTag + 1
            timer :=
              if s.memory.outstanding = [] then
                (if s.loader.memoryTimeout = 0 then none else some s.loader.memoryTimeout)
              else s.memory.timer
            issued := s.memory.issued ++ [tx] } }

/-- An admitted request of any disposition that issues (FORWARD, TALLY_READ, TALLY_WRITE, GUARDED_READ, a GUARDED_WRITE that commits): the
waiting write halves issue before it, in the order their read halves were retired (R91, R119): each takes the next tag and writes its
tally's bytes at its tally's address (IssuesAndIdleMemoryPort spells both out); then the request's transaction follows with the tag after theirs, a TALLY_WRITE's being its read half,
whose tag the slot taken records (R87, R88). All of them join the outstanding list in that order. -/
def Obligations.WriteHalvesIssueFirst : Prop :=
  ∀ (s : State) (g : Grant), s.winner = some g → s.tally.lawful →
    (g.cls.disp = .forward ∨ g.cls.disp = .tallyRead ∨ g.cls.disp = .tallyWrite ∨ g.cls.disp = .guardedRead
      ∨ g.cls.disp = .guardedWrite ∧ s.monitor.noneRunOut
        ∧ (s.monitor.judge g.cls.agent g.cls.cell = .byEntry ∨ ∃ i, s.monitor.judge g.cls.agent g.cls.cell = .byHold i)) →
    ∃ t halves tx, exec .admission s = .next t
      ∧ t.memory.issued = s.memory.issued ++ halves ++ [tx]
      ∧ halves.length = s.tally.waiting.length
      ∧ (∀ (k : Nat) (i : SlotIx) (h : Transaction), s.tally.waiting[k]? = some i → halves[k]? = some h →
          ∃ x, s.tally.slots.get i = some x
            ∧ h = { tag := s.memory.nextTag + BitVec.ofNat 5 k, dir := .write, addr := x.addr, len := x.width.len
                    data := x.writeData }
            ∧ t.tally.slots.get i = some { x with tag := some h.tag })
      ∧ tx.tag = s.memory.nextTag + BitVec.ofNat 5 s.tally.waiting.length
      ∧ tx.addr = g.acc.req.addr ∧ tx.len = g.acc.req.len
      ∧ (g.cls.disp = .tallyWrite → tx.dir = .read ∧ tx.data = []
          ∧ ∃ i x, s.tally.slots.get i = none ∧ t.tally.slots.get i = some x ∧ x.phase = .reading ∧ x.tag = some tx.tag
            ∧ x.agent = g.cls.agent ∧ x.cell = g.cls.cell ∧ x.epoch = g.acc.epoch ∧ x.id = g.acc.id
            ∧ ∀ j, j ≠ i → j ∉ s.tally.waiting → t.tally.slots.get j = s.tally.slots.get j)
      ∧ (g.cls.disp ≠ .tallyWrite → tx.dir = g.acc.req.dir ∧ tx.data = g.acc.req.payload
          ∧ ∀ j, j ∉ s.tally.waiting → t.tally.slots.get j = s.tally.slots.get j)
      ∧ t.tally.waiting = [] ∧ t.memory.nextTag = tx.tag + 1
      ∧ t.memory.outstanding.map (·.tx) = s.memory.outstanding.map (·.tx) ++ halves ++ [tx]
      ∧ t.memory.outstanding.take s.memory.outstanding.length = s.memory.outstanding
      ∧ (g.cls.disp = .forward ∨ g.cls.disp = .tallyRead ∨ g.cls.disp = .tallyWrite →
          t.monitor = s.monitor ∧ t.capture = s.capture ∧ t.attention = s.attention)

/-- A guarded read by an ENTITLED agent of a cell that no slot is HOLDING (R23 case 1, R24, R73): the slot becomes HOLDING with the region's
hold limit, the agent HOLDING, its own entry and loss entry for the cell go, a HOLD record is offered, and the read is issued. -/
def Obligations.GuardedReadConverts : Prop :=
  ∀ (s : State) (g : Grant) (region lease holdLimit threshold n : Nat) (i : SlotIx),
    s.winner = some g → g.cls.disp = .guardedRead → g.cls.region = .region region →
    g.cls.kind = .guarded lease holdLimit threshold → s.monitor.slotsLawful → s.monitor.noneRunOut →
    s.monitor.slots.get i = .entitled g.cls.agent n →
    (∀ j b r k, s.monitor.slots.get j ≠ .holding b g.cls.cell r k) →
    ∃ m : Monitor,
      exec .admission s =
        .next { (s.issueRequest g).offer (.ofHold g.cls.agent g.cls.cell (.region region)) with
          ports := s.ports.set g.port { s.ports.get g.port with queue := (s.ports.get g.port).queue.tail }
          pointer := g.port + 1
          monitor := m }
      ∧ m.table = s.monitor.table.filter (fun e => !(e.agent == g.cls.agent && e.cell == g.cls.cell))
      ∧ m.slots = s.monitor.slots.set i (.holding g.cls.agent g.cls.cell region holdLimit)
      ∧ m.waitList = s.monitor.waitList
      ∧ ∀ a, m.ctx a =
          if a = g.cls.agent then
            { s.monitor.ctx a with
              state := .holding, loss := (s.monitor.ctx a).loss.filter (fun x => x.cell != g.cls.cell) }
          else s.monitor.ctx a

/-- A guarded read of a cell the agent holds changes nothing in the monitor (R23 case 2, R25); with an entry on the cell and no conversion, the
entry is refreshed: its lease restarts and it moves to the youngest end, and nothing else of the monitor changes (case 3, R26). No record
is offered in either case, and the read is issued. -/
def Obligations.GuardedReadKeepsOrRefreshes : Prop :=
  ∀ (s : State) (g : Grant) (region lease holdLimit threshold : Nat),
    s.winner = some g → g.cls.disp = .guardedRead → g.cls.region = .region region →
    g.cls.kind = .guarded lease holdLimit threshold → s.monitor.lawful → s.monitor.noneRunOut →
    ((∃ i r n, s.monitor.slots.get i = .holding g.cls.agent g.cls.cell r n) →
        exec .admission s =
          .next { s.issueRequest g with
            ports := s.ports.set g.port { s.ports.get g.port with queue := (s.ports.get g.port).queue.tail }
            pointer := g.port + 1 })
      ∧ ∀ e, e ∈ s.monitor.table → e.agent = g.cls.agent → e.cell = g.cls.cell →
        ((∀ i n, s.monitor.slots.get i ≠ .entitled g.cls.agent n)
          ∨ ∃ i b r n, s.monitor.slots.get i = .holding b g.cls.cell r n) →
        exec .admission s =
          .next { s.issueRequest g with
            ports := s.ports.set g.port { s.ports.get g.port with queue := (s.ports.get g.port).queue.tail }
            pointer := g.port + 1
            monitor := { s.monitor with
              table := s.monitor.table.filter (fun x => !(x.agent == g.cls.agent && x.cell == g.cls.cell))
                ++ [{ e with lease := lease }] } }

/-- A guarded read that creates an entry (R23 case 4, R27, R28), with the three outcomes of step 2. `removed` is the entry displaced (the
agent's oldest, when it has 4) or evicted (the table's oldest, when it holds 24), or none. -/
def Obligations.GuardedReadCreates : Prop :=
  ∀ (s : State) (g : Grant) (region lease holdLimit threshold : Nat) (removed : Option TableEntry),
    s.winner = some g → g.cls.disp = .guardedRead → g.cls.region = .region region →
    g.cls.kind = .guarded lease holdLimit threshold → s.monitor.lawful → s.monitor.noneRunOut →
    (∀ e ∈ s.monitor.table, ¬(e.agent = g.cls.agent ∧ e.cell = g.cls.cell)) →
    (∀ i r n, s.monitor.slots.get i ≠ .holding g.cls.agent g.cls.cell r n) →
    ((∀ i n, s.monitor.slots.get i ≠ .entitled g.cls.agent n)
      ∨ ∃ i b r n, s.monitor.slots.get i = .holding b g.cls.cell r n) →
    removed =
      (if (s.monitor.table.filter (fun e => e.agent == g.cls.agent)).length = 4 then
        s.monitor.table.find? (fun e => e.agent == g.cls.agent)
      else if s.monitor.table.length = 24 then s.monitor.table.head? else none) →
    ∃ (m : Monitor) (x : State),
      x = (match removed with
        | none => s.issueRequest g
        | some e =>
          if (s.monitor.table.filter (fun e => e.agent == g.cls.agent)).length = 4 then
            (s.issueRequest g).offer (.ofDisplace e.agent e.cell (.region e.region))
          else
            ((s.issueRequest g).offer (.ofEvict e.agent e.cell (.region e.region) g.cls.agent)).setFlag .eviction)
      ∧ exec .admission s =
        .next { x with
          ports := s.ports.set g.port { s.ports.get g.port with queue := (s.ports.get g.port).queue.tail }
          pointer := g.port + 1
          monitor := m }
      ∧ m.table = s.monitor.table.filter (fun e => some e != removed)
          ++ [{ agent := g.cls.agent, cell := g.cls.cell, region := region, lease := lease }]
      ∧ m.slots = s.monitor.slots ∧ m.waitList = s.monitor.waitList
      ∧ ∀ a, m.ctx a =
          { s.monitor.ctx a with
            loss :=
              let kept :=
                if a = g.cls.agent then (s.monitor.ctx a).loss.filter (fun x => x.cell != g.cls.cell)
                else (s.monitor.ctx a).loss
              match removed with
              | none => kept
              | some e =>
                if a = e.agent then
                  insertLoss kept e.cell
                    (if (s.monitor.table.filter (fun e => e.agent == g.cls.agent)).length = 4 then .displaced else .evicted)
                else kept }

/-- How a guarded write is judged (R43): held by another, by the writer's hold, by the writer's entry, by its loss entry, or with no
reservation; exactly one of the five in this order. -/
def Obligations.GuardedWriteJudged : Prop :=
  ∀ (m : Monitor) (a : Agent) (c : Addr), m.lawful →
    ((∃ i b r n, m.slots.get i = .holding b c r n ∧ b ≠ a) ↔ m.judge a c = .heldByOther)
      ∧ (∀ i, (∃ r n, m.slots.get i = .holding a c r n) ↔ m.judge a c = .byHold i)
      ∧ (((∀ i b r n, m.slots.get i ≠ .holding b c r n) ∧ ∃ e ∈ m.table, e.agent = a ∧ e.cell = c) ↔ m.judge a c = .byEntry)
      ∧ (∀ k, ((∀ i b r n, m.slots.get i ≠ .holding b c r n) ∧ (∀ e ∈ m.table, ¬(e.agent = a ∧ e.cell = c))
            ∧ { cell := c, cause := k } ∈ (m.ctx a).loss) ↔ m.judge a c = .lost k)
      ∧ (((∀ i b r n, m.slots.get i ≠ .holding b c r n) ∧ (∀ e ∈ m.table, ¬(e.agent = a ∧ e.cell = c))
            ∧ ∀ x ∈ (m.ctx a).loss, x.cell ≠ c) ↔ m.judge a c = .noReservation)

/-- A guarded write that commits by the writer's entry (R46, R49, R50, R57): the entry is consumed, every other agent's entry on the cell is
broken with a loss entry BROKEN, the streak goes to 0 and the commits counter rises, COMMIT and then one BREAK for each broken entry are
offered, oldest first, and the write is issued; holds, the wait list and every other context stay. -/
def Obligations.WriteByReservationCommits : Prop :=
  ∀ (s : State) (g : Grant),
    s.winner = some g → g.cls.disp = .guardedWrite → s.monitor.noneRunOut →
    s.monitor.judge g.cls.agent g.cls.cell = .byEntry →
    ∃ m : Monitor,
      exec .admission s =
        .next { (s.issueRequest g).offerAll
            (.ofCommit g.cls.agent g.cls.cell g.cls.region
              :: (s.monitor.table.filter (fun e => e.agent != g.cls.agent && e.cell == g.cls.cell)).map
                  (fun e => .ofBreak e.agent g.cls.cell (.region e.region) g.cls.agent)) with
          ports := s.ports.set g.port { s.ports.get g.port with queue := (s.ports.get g.port).queue.tail }
          pointer := g.port + 1
          monitor := m }
      ∧ m.table = s.monitor.table.filter (fun e => e.cell != g.cls.cell)
      ∧ m.slots = s.monitor.slots ∧ m.waitList = s.monitor.waitList
      ∧ ∀ a, m.ctx a =
          if a = g.cls.agent then
            { s.monitor.ctx a with
              streak := 0
              commits := if (s.monitor.ctx a).commits < 0xFFFF then (s.monitor.ctx a).commits + 1 else (s.monitor.ctx a).commits }
          else if s.monitor.table.any (fun e => e.agent == a && e.cell == g.cls.cell) then
            { s.monitor.ctx a with loss := insertLoss (s.monitor.ctx a).loss g.cls.cell .broken }
          else s.monitor.ctx a

/-- A guarded write that commits by the writer's hold (R45, R49, R50, R57, R71, R78): as by an entry, but no entry of the writer's is consumed,
the slot becomes FREE with a RELEASE record of cause NONE, the holder becomes NORMAL, and the oldest waiter, if any, takes the slot with an
ENTITLE record. -/
def Obligations.WriteByHoldCommits : Prop :=
  ∀ (s : State) (g : Grant) (i : SlotIx) (region n : Nat),
    s.winner = some g → g.cls.disp = .guardedWrite → s.monitor.lawful → s.monitor.noneRunOut →
    s.monitor.slots.get i = .holding g.cls.agent g.cls.cell region n →
    ∃ m : Monitor,
      exec .admission s =
        .next { (s.issueRequest g).offerAll
            (.ofCommit g.cls.agent g.cls.cell g.cls.region
              :: (s.monitor.table.filter (fun e => e.cell == g.cls.cell)).map
                  (fun e => .ofBreak e.agent g.cls.cell (.region e.region) g.cls.agent)
              ++ .ofRelease g.cls.agent (some (g.cls.cell, .region region)) .none
              :: (s.monitor.waitList.take 1).map .ofEntitle) with
          ports := s.ports.set g.port { s.ports.get g.port with queue := (s.ports.get g.port).queue.tail }
          pointer := g.port + 1
          monitor := m }
      ∧ m.table = s.monitor.table.filter (fun e => e.cell != g.cls.cell)
      ∧ m.slots = s.monitor.slots.set i
          (match s.monitor.waitList with
          | [] => .free
          | w :: _ => .entitled w s.loader.entitlementLimit)
      ∧ m.waitList = s.monitor.waitList.tail
      ∧ ∀ a, m.ctx a =
          if a = g.cls.agent then
            { s.monitor.ctx a with
              state := .normal
              streak := 0
              commits := if (s.monitor.ctx a).commits < 0xFFFF then (s.monitor.ctx a).commits + 1 else (s.monitor.ctx a).commits }
          else
            { s.monitor.ctx a with
              state := if s.monitor.waitList.head? = some a then .entitled else (s.monitor.ctx a).state
              loss :=
                if s.monitor.table.any (fun e => e.agent == a && e.cell == g.cls.cell) then
                  insertLoss (s.monitor.ctx a).loss g.cls.cell .broken
                else (s.monitor.ctx a).loss }

/-- A refused guarded write that does not escalate (R44, R47, R48, R55, R56): its entry is answered REFUSED at once, nothing is issued and no
place is taken, the refusals counter rises, the verdict is the cause, the streak rises for the five causes of R56 alone, the loss entry
that gave the cause is used up, one REFUSE record is offered, and nothing else changes. -/
def Obligations.WriteRefused : Prop :=
  ∀ (s : State) (g : Grant) (lease holdLimit threshold : Nat) (k : Cause) (streak : Nat),
    s.winner = some g → g.cls.disp = .guardedWrite → g.cls.kind = .guarded lease holdLimit threshold →
    s.monitor.noneRunOut →
    (s.monitor.judge g.cls.agent g.cls.cell = .heldByOther ∧ k = .held
      ∨ s.monitor.judge g.cls.agent g.cls.cell = .lost k
      ∨ s.monitor.judge g.cls.agent g.cls.cell = .noReservation ∧ k = .noReservation) →
    streak =
      (if k ∈ [Cause.noReservation, .broken, .expired, .evicted, .displaced] ∧ (s.monitor.ctx g.cls.agent).streak < 15 then
        (s.monitor.ctx g.cls.agent).streak + 1
      else (s.monitor.ctx g.cls.agent).streak) →
    (k ∉ [Cause.noReservation, .broken, .expired, .evicted, .displaced] ∨ threshold = 0
      ∨ (s.monitor.ctx g.cls.agent).state ≠ .normal ∨ streak < threshold) →
    ∃ m : Monitor,
      exec .admission s =
        .next { s.offer (.ofRefuse g.cls.agent g.cls.cell g.cls.region k) with
          ports := s.ports.set g.port ((s.ports.get g.port).answeredHead g.acc.id k)
          pointer := g.port + 1
          monitor := m }
      ∧ m.table = s.monitor.table ∧ m.slots = s.monitor.slots ∧ m.waitList = s.monitor.waitList
      ∧ ∀ a, m.ctx a =
          if a = g.cls.agent then
            { s.monitor.ctx a with
              streak := streak
              verdict := k
              refusals := if (s.monitor.ctx a).refusals < 0xFFFF then (s.monitor.ctx a).refusals + 1 else (s.monitor.ctx a).refusals
              loss :=
                if s.monitor.judge g.cls.agent g.cls.cell = .lost k then
                  (s.monitor.ctx a).loss.filter (fun x => x.cell != g.cls.cell)
                else (s.monitor.ctx a).loss }
          else s.monitor.ctx a

/-- A refused guarded write that escalates (R55, R66 to R68): the streak goes to 0; the agent takes the lowest-numbered FREE slot as ENTITLED
with the live limit, and an ENTITLE record stands after the REFUSE record; or, with no slot FREE, it joins the wait list and becomes
WAITING, with no further record. -/
def Obligations.EscalationPlacesAgent : Prop :=
  ∀ (s : State) (g : Grant) (lease holdLimit threshold : Nat) (k : Cause) (streak : Nat),
    s.winner = some g → g.cls.disp = .guardedWrite → g.cls.kind = .guarded lease holdLimit threshold →
    s.monitor.noneRunOut →
    (s.monitor.judge g.cls.agent g.cls.cell = .lost k
      ∨ s.monitor.judge g.cls.agent g.cls.cell = .noReservation ∧ k = .noReservation) →
    k ∈ [Cause.noReservation, .broken, .expired, .evicted, .displaced] →
    streak =
      (if (s.monitor.ctx g.cls.agent).streak < 15 then (s.monitor.ctx g.cls.agent).streak + 1
      else (s.monitor.ctx g.cls.agent).streak) →
    threshold ≠ 0 → (s.monitor.ctx g.cls.agent).state = .normal → threshold ≤ streak →
    ∃ (m : Monitor) (rs : List Record) (st : AgentState),
      exec .admission s =
        .next { s.offerAll (.ofRefuse g.cls.agent g.cls.cell g.cls.region k :: rs) with
          ports := s.ports.set g.port ((s.ports.get g.port).answeredHead g.acc.id k)
          pointer := g.port + 1
          monitor := m }
      ∧ m.table = s.monitor.table
      ∧ (∀ i, s.monitor.slots.get i = .free → (∀ j, j < i → s.monitor.slots.get j ≠ .free) →
          rs = [.ofEntitle g.cls.agent] ∧ st = .entitled ∧ m.waitList = s.monitor.waitList
            ∧ m.slots = s.monitor.slots.set i (.entitled g.cls.agent s.loader.entitlementLimit))
      ∧ ((∀ i, s.monitor.slots.get i ≠ .free) →
          rs = [] ∧ st = .waiting ∧ m.waitList = s.monitor.waitList ++ [g.cls.agent] ∧ m.slots = s.monitor.slots)
      ∧ ∀ a, m.ctx a =
          if a = g.cls.agent then
            { s.monitor.ctx a with
              state := st
              streak := 0
              verdict := k
              refusals := if (s.monitor.ctx a).refusals < 0xFFFF then (s.monitor.ctx a).refusals + 1 else (s.monitor.ctx a).refusals
              loss :=
                if s.monitor.judge g.cls.agent g.cls.cell = .lost k then
                  (s.monitor.ctx a).loss.filter (fun x => x.cell != g.cls.cell)
                else (s.monitor.ctx a).loss }
          else s.monitor.ctx a

/-- A TALLY_WRITE with no write half waiting (R85, R87, R88, R95): a FREE slot becomes READING with the request's fields and the region's mode,
and the read half, a READ of the width at the request's own address, is issued with the next tag, which the slot records; the monitor, the
capture and the flags stay, and the request's entry stays PENDING. -/
def Obligations.TallyWriteTaken : Prop :=
  ∀ (s : State) (g : Grant) (region : Nat) (mode : TallyMode) (width : TallyWidth),
    s.winner = some g → g.cls.disp = .tallyWrite → g.cls.region = .region region → g.cls.kind = .tally mode →
    s.tally.waiting = [] →
    (g.acc.req.len = .single .s4 ∧ width = .w4 ∨ g.acc.req.len = .single .s8 ∧ width = .w8) →
    ∃ (i : SlotIx) (tx : Transaction),
      s.tally.slots.get i = none
      ∧ tx = { tag := s.memory.nextTag, dir := .read, addr := g.acc.req.addr, len := g.acc.req.len, data := [] }
      ∧ exec .admission s =
        .next { s with
          ports := s.ports.set g.port { s.ports.get g.port with queue := (s.ports.get g.port).queue.tail }
          pointer := g.port + 1
          tally := { s.tally with
            slots := s.tally.slots.set i (some
              { phase := .reading, agent := g.cls.agent, cell := g.cls.cell, region := region
                offset := g.acc.req.addr.toNat - g.cls.cell.toNat, width := width
                addend := BitVec.ofNat 64 (leNat (laneBytes width.bytes g.acc.req.data))
                mode := mode, epoch := g.acc.epoch, tag := some s.memory.nextTag, id := g.acc.id }) }
          memory :=
            { outstanding := s.memory.outstanding ++
                [{ tx := tx
                   origin := .tallyRead
                     { agent := g.cls.agent, epoch := g.acc.epoch, cell := g.cls.cell, region := .region region } i }]
              nextTag := s.memory.nextTag + 1
              timer :=
                if s.memory.outstanding = [] then
                  (if s.loader.memoryTimeout = 0 then none else some s.loader.memoryTimeout)
                else s.memory.timer
              issued := s.memory.issued ++ [tx] } }


/-! ### Classification -/

/-- The classifier's decision (R7 to R12). The area of a byte address (R7): the window, 512 bytes from the policy base on that the sampled PBASE
selects (R17, R128); else the region of a valid table whose granules cover it; else default space; with the kind and the index each reports,
those of the first byte for a request. Then the checks in the order alignment, straddle, kind, fence, and the disposition; STRADDLE is never given. `misaligned` spells out R8. -/
def Obligations.ClassifierDecision : Prop :=
  (∀ (l : Loader) (a base : Nat),
      ([0x0000FE00, 0x0007FE00, 0x001FFE00, 0xFFFFFE00] : List Nat)[l.pbase.val]? = some base →
      (l.areaOf a = .window ↔ base ≤ a ∧ a ≤ base + 511)
        ∧ (l.lawful → ∀ i, l.areaOf a = .region i ↔
            ¬(base ≤ a ∧ a ≤ base + 511)
              ∧ ∃ r, l.regions[i]? = some r ∧ r.base ≤ a / 4096 ∧ a / 4096 < r.base + r.length)
        ∧ (l.areaOf a = .defaultSpace ↔
            ¬(base ≤ a ∧ a ≤ base + 511) ∧ ∀ r ∈ l.regions, ¬(r.base ≤ a / 4096 ∧ a / 4096 < r.base + r.length)))
    ∧ (∀ (l : Loader) (p : PortIx) (r : Req),
      (l.areaOf r.addr.toNat = .window ∨ l.areaOf r.addr.toNat = .defaultSpace →
          (l.classify p r).kind = .openRegion ∧ (l.classify p r).region = .default)
        ∧ ∀ i, l.areaOf r.addr.toNat = .region i →
          (l.classify p r).region = .region i ∧ ∃ x, l.regions[i]? = some x ∧ (l.classify p r).kind = x.kind)
    ∧ ∀ (l : Loader) (p : PortIx) (r : Req) (misaligned : Prop) (kind : RegionKind),
    (misaligned ↔
      match r.len with
      | .single size => r.addr.toNat % size.bytes ≠ 0
      | .burst extra =>
        r.addr.toNat % 8 ≠ 0 ∨ extra.val + 1 = 1 ∨ 64 < r.addr.toNat % 64 + 8 * (extra.val + 1)) →
    kind = (l.classify p r).kind →
    (l.classify p r).disp ≠ .answer .straddle
      ∧ ((l.classify p r).disp = .answer .misaligned ↔ misaligned)
      ∧ ((l.classify p r).disp = .answer .burstInGuard ↔
          ¬misaligned ∧ (∃ n, r.len = .burst n) ∧ ((∃ a b c, kind = .guarded a b c) ∨ ∃ m, kind = .tally m))
      ∧ ((l.classify p r).disp = .answer .narrowTally ↔
          ¬misaligned ∧ (r.len = .single .s1 ∨ r.len = .single .s2) ∧ r.dir = .write ∧ ∃ m, kind = .tally m)
      ∧ ((l.classify p r).disp = .answer .fenced ↔
          ¬misaligned ∧ r.dir = .write
            ∧ ((l.areaOf r.addr.toNat = .window ∧ p ≠ l.ownp)
              ∨ ∃ w, kind = .fenced w ∧ w.getLsbD (4 * p.val + r.tag.val) = false))
      ∧ ((l.classify p r).disp = .guardedRead ↔
          ¬misaligned ∧ r.dir = .read ∧ (∃ s, r.len = .single s) ∧ ∃ a b c, kind = .guarded a b c)
      ∧ ((l.classify p r).disp = .guardedWrite ↔
          ¬misaligned ∧ r.dir = .write ∧ (∃ s, r.len = .single s) ∧ ∃ a b c, kind = .guarded a b c)
      ∧ ((l.classify p r).disp = .tallyRead ↔
          ¬misaligned ∧ r.dir = .read ∧ (∃ s, r.len = .single s) ∧ ∃ m, kind = .tally m)
      ∧ ((l.classify p r).disp = .tallyWrite ↔
          ¬misaligned ∧ r.dir = .write ∧ (r.len = .single .s4 ∨ r.len = .single .s8) ∧ ∃ m, kind = .tally m)
      ∧ ((l.classify p r).disp = .forward ↔
          ¬misaligned ∧ (kind = .openRegion ∨ ∃ w, kind = .fenced w) ∧ (l.classify p r).disp ≠ .answer .fenced)



/-- A request that passes the alignment check lies in one area: every byte of its span has the area of its first byte, and its first cell too
(R3, R9). It is marked as a trigger exactly when it is a forwarded WRITE into the window whose span includes a byte of the generation word,
at policy base + 4 to + 7 (R18). What the classifier hands over besides (R12): the agent, 4 × port + tag (R2); the direction; the first cell,
which is the address with its low three bits zero, and the cell count, 1 for a single and the beats for a burst (R3). -/
def Obligations.SpanAreaAndTriggerMark : Prop :=
  ∀ (l : Loader) (p : PortIx) (r : Req),
    ((l.classify p r).disp ≠ .answer .misaligned →
      l.areaOf (l.classify p r).cell.toNat = l.areaOf r.addr.toNat
        ∧ ∀ b, r.addr.toNat ≤ b → b < r.addr.toNat + r.len.bytes → l.areaOf b = l.areaOf r.addr.toNat)
      ∧ ((l.classify p r).trigger = true ↔
        (l.classify p r).disp = .forward ∧ r.dir = .write ∧ l.areaOf r.addr.toNat = .window
          ∧ ∃ b, r.addr.toNat ≤ b ∧ b < r.addr.toNat + r.len.bytes
            ∧ (Config.policyBase l.pbase).toNat + 4 ≤ b ∧ b ≤ (Config.policyBase l.pbase).toNat + 7)
      ∧ (l.classify p r).agent.val = 4 * p.val + r.tag.val ∧ (l.classify p r).dir = r.dir
      ∧ (l.classify p r).cell.toNat = r.addr.toNat - r.addr.toNat % 8
      ∧ (l.classify p r).cells =
        match r.len with
        | .single _ => 1
        | .burst extra => extra.val + 1

/-! ### The memory port -/


/-- The OKAY retirement of an agent request without a trigger mark (R121, R122, R124): the entry leaves the list, the timer starts for the
next, the order-list entry is completed with OKAY NONE and a read's bytes, a write whose entry was PENDING sets the verdict, and nothing
else changes. The order list is spelled out here for every statement that completes, finishes or answers an entry (R105, R107): the
request's entry goes from PENDING to READY with that very response, or stays PENDING or READY where no response is formed; a DISCARD entry is
marked finished; then the finished entries at the head leave, and no other entry changes. -/
def Obligations.RequestCompletesOkay : Prop :=
  (∀ (s : State) (e : OutEntry) (rest : List OutEntry) (o : Owner) (id : Nat) (d : Disposition) (data : BitVec 512) (q : Port),
    s.memory.outstanding = e :: rest → e.origin = .agentRequest o id d false → q = s.ports.get (portOf o.agent) →
    ∃ m : Monitor,
      exec (.memoryResponse e.tx.tag true data) s =
        .next { s with
          memory := { s.memory with
            outstanding := rest
            timer :=
              if rest = [] then none
              else if s.loader.memoryTimeout = 0 then none else some s.loader.memoryTimeout }
          ports := s.ports.set (portOf o.agent)
            (q.complete id
              { cause := .none
                data := match e.tx.dir with
                  | .read => laneBytes e.tx.len.bytes data
                  | .write => [] })
          monitor := m }
      ∧ m.table = s.monitor.table ∧ m.slots = s.monitor.slots ∧ m.waitList = s.monitor.waitList
      ∧ ∀ a, m.ctx a =
          if a = o.agent ∧ e.tx.dir = .write ∧ (q.order.any (fun x => x.acc.id == id && x.state == .pending)) = true then
            { s.monitor.ctx a with verdict := .none }
          else s.monitor.ctx a)
    ∧ ∀ (q : Port) (id : Nat) (r : Response) (k : Cause) (list : (EntryState → EntryState) → List OrderEntry)
      (formed ended : EntryState → EntryState),
      (∀ f, list f = (q.order.map (fun x => if x.acc.id = id then { x with state := f x.state } else x)).dropWhile
        (fun x => x.state == .discard true)) →
      formed .pending = .ready r → (∀ r0, formed (.ready r0) = .ready r0) → (∀ b, formed (.discard b) = .discard true) →
      ended .pending = .pending → (∀ r0, ended (.ready r0) = .ready r0) → (∀ b, ended (.discard b) = .discard true) →
      q.complete id r = { q with order := list formed } ∧ q.finish id = { q with order := list ended }
        ∧ (r = { cause := k, data := [] } → q.answeredHead id k = { q with queue := q.queue.tail, order := list formed })

/-- The failure of an agent request, by an ERROR response or by the memory timeout (R38, R121, R123 to R125): the flag, the entry completed with
the FAULT, the verdict of a write whose entry was PENDING, one FAULT record, and for a guarded read whose epoch is still the port's the
removal of the agent's entry on the cell; nothing else changes. -/
def Obligations.RequestFails : Prop :=
  ∀ (s : State) (e : OutEntry) (rest : List OutEntry) (o : Owner) (id : Nat) (d : Disposition) (trigger : Bool)
    (c : Instr) (f : CauseFlag) (k : Cause) (q : Port),
    s.memory.outstanding = e :: rest → e.origin = .agentRequest o id d trigger → q = s.ports.get (portOf o.agent) →
    ((∃ data, c = .memoryResponse e.tx.tag false data) ∧ f = .memError ∧ k = .memError
      ∨ c = .memoryTimeout ∧ s.memory.timer = some 0 ∧ f = .memTimeout ∧ k = .memTimeout) →
    ∃ m : Monitor,
      exec c s =
        .next { (s.setFlag f).offer (.ofFault o.agent o.cell o.region k) with
          memory := { s.memory with
            outstanding := rest
            timer :=
              if rest = [] then none
              else if s.loader.memoryTimeout = 0 then none else some s.loader.memoryTimeout }
          ports := s.ports.set (portOf o.agent) (q.complete id { cause := k, data := [] })
          monitor := m }
      ∧ m.table =
          (if d = .guardedRead ∧ o.epoch = q.epoch then
            s.monitor.table.filter (fun x => !(x.agent == o.agent && x.cell == o.cell))
          else s.monitor.table)
      ∧ m.slots = s.monitor.slots ∧ m.waitList = s.monitor.waitList
      ∧ ∀ a, m.ctx a =
          if a = o.agent ∧ e.tx.dir = .write ∧ (q.order.any (fun x => x.acc.id == id && x.state == .pending)) = true then
            { s.monitor.ctx a with verdict := k }
          else s.monitor.ctx a

/-- A response whose tag is not that of the oldest outstanding entry, or that finds the list empty, changes nothing (R121). The issue of a write
half (R91) and of a loader read (R119, R135), with the tag, the place and the timer of R117, R118 and R124. What a write half is (R85, R91): a
WRITE of the tally's width at its cell plus its offset, for the tally's agent, epoch, cell and region, with the width's bytes of the new value,
least significant first (R89). That an event which the state does not enable changes nothing is the model's choice (assumption 1): MEMORY_TIMEOUT
while no running timer has come to 0, WRITE_HALF_ISSUE with no write half waiting, LOADER_READ_ISSUE with no read asked for or no place free. That
a loader read issues by this command, after the one that asks for it, is the model's choice (assumption 25), and so is that a write half issues by
its own command, after the one that retires its read half (assumption 27). -/
def Obligations.IssuesAndIdleMemoryPort : Prop :=
  (∀ (tag : BitVec 5) (okay : Bool) (data : BitVec 512) (s : State),
      (∀ e, s.memory.outstanding.head? = some e → e.tx.tag ≠ tag) → exec (.memoryResponse tag okay data) s = .next s)
    ∧ (∀ s : State, s.memory.timer ≠ some 0 ∨ s.memory.outstanding = [] → exec .memoryTimeout s = .next s)
    ∧ (∀ (s : State) (i : SlotIx) (rest : List SlotIx) (t : Tally),
        s.tally.waiting = i :: rest → s.tally.slots.get i = some t →
        exec .writeHalfIssue s =
          .next { s with
            tally := { slots := s.tally.slots.set i (some { t with tag := some s.memory.nextTag }), waiting := rest }
            memory := s.memory.issue s.loader.memoryTimeout .write t.addr t.width.len t.writeData (.tallyWrite t.owner i) })
    ∧ (∀ t : Tally,
        t.addr = t.cell + BitVec.ofNat 32 t.offset
          ∧ t.owner = { agent := t.agent, epoch := t.epoch, cell := t.cell, region := .region t.region }
          ∧ (t.width = .w4 → t.width.len = .single .s4 ∧ t.width.bytes = 4)
          ∧ (t.width = .w8 → t.width.len = .single .s8 ∧ t.width.bytes = 8)
          ∧ ∀ v clamped, t.phase = .writing v clamped →
            t.writeData.length = t.width.bytes
              ∧ ∀ (k : Nat) (b : Byte), t.writeData[k]? = some b → b.toNat = v.toNat / 256 ^ k % 256)
    ∧ (∀ s : State, s.tally.waiting = [] → exec .writeHalfIssue s = .next s)
    ∧ (∀ (s : State) (b : BlockRead) (addr : Addr) (rest : List Addr),
        s.loader.reading = some b → b.asked = addr :: rest →
        exec .loaderReadIssue s =
          if s.placesUsed < 16 then
            .next { s with
              loader := { s.loader with reading := some { b with asked := rest } }
              memory := s.memory.issue s.loader.memoryTimeout .read addr (.single .s8) [] .loaderRead }
          else .next s)
    ∧ ∀ s : State, (∀ b, s.loader.reading = some b → b.asked = []) → exec .loaderReadIssue s = .next s

/-! ### Tallies -/

/-- The read half completes OKAY (R89 to R91): the slot becomes WRITING with the value and the outcome formed, its write half waits to issue, and
SATURATED is set exactly when the sum clamped; nothing else changes. That the write half does not issue inside this step is the model's choice
(assumption 27). -/
def Obligations.ReadHalfCompletes : Prop :=
  ∀ (s : State) (e : OutEntry) (rest : List OutEntry) (o : Owner) (i : SlotIx) (t : Tally) (data : BitVec 512)
    (v : BitVec 64) (clamped : Bool),
    s.memory.outstanding = e :: rest → e.origin = .tallyRead o i → s.tally.slots.get i = some t →
    (v, clamped) = t.form (laneBytes t.width.bytes data) →
    exec (.memoryResponse e.tx.tag true data) s =
      .next { (if clamped then s.setFlag .saturated else s) with
        memory := { s.memory with
          outstanding := rest
          timer :=
            if rest = [] then none
            else if s.loader.memoryTimeout = 0 then none else some s.loader.memoryTimeout }
        tally :=
          { slots := s.tally.slots.set i (some { t with phase := .writing v clamped, tag := none })
            waiting := s.tally.waiting ++ [i] } }

/-- What a tally forms (R89, R90): in WRAP mode the sum modulo 2^32 or 2^64, never clamped; in SATURATE mode the exact signed sum, kept in the
range of the width, clamped exactly when it lies outside. -/
def Obligations.TallyArithmetic : Prop :=
  ∀ (t : Tally) (bytes : List Byte) (x y : Int),
    bytes.length = t.width.bytes →
    x = (BitVec.ofNat t.width.bits (leNat bytes)).toInt → y = (BitVec.ofNat t.width.bits t.addend.toNat).toInt →
    (t.mode = .wrap →
        (t.form bytes).1.toNat = (leNat bytes + t.addend.toNat) % 2 ^ t.width.bits ∧ (t.form bytes).2 = false)
      ∧ (t.mode = .saturate →
        ((t.form bytes).1.toNat : Int)
            = max (-(2 ^ (t.width.bits - 1))) (min (2 ^ (t.width.bits - 1) - 1) (x + y)) % 2 ^ t.width.bits
          ∧ ((t.form bytes).2 = true ↔ x + y < -(2 ^ (t.width.bits - 1)) ∨ 2 ^ (t.width.bits - 1) - 1 < x + y))

/-- The end of a tally (R92 to R95): by the write half's OKAY, with the slot's outcome and a TALLY record, the outcome being OKAY SATURATED
exactly when the new value of the WRITING slot was clamped, and OKAY NONE otherwise (R85, R90); or by the failure of either half, with
the flag and one FAULT record. The response is formed and the verdict set exactly when the slot's epoch is the port's; the slot becomes
FREE; nothing else changes. -/
def Obligations.TallyEnds : Prop :=
  (∀ (s x : State) (e : OutEntry) (rest : List OutEntry) (i : SlotIx) (t : Tally) (c : Instr) (k : Cause) (q : Port),
    s.memory.outstanding = e :: rest → s.tally.slots.get i = some t → q = s.ports.get (portOf t.agent) →
    ((∃ o, e.origin = .tallyWrite o i) ∧ (∃ data, c = .memoryResponse e.tx.tag true data) ∧ k = t.outcome
        ∧ x = s.offer (.ofTally t.agent t.cell (.region t.region) k)
      ∨ (∃ o, e.origin = .tallyRead o i ∨ e.origin = .tallyWrite o i)
        ∧ (∃ data, c = .memoryResponse e.tx.tag false data) ∧ k = .memError
        ∧ x = (s.setFlag .memError).offer (.ofFault t.agent t.cell (.region t.region) k)
      ∨ (∃ o, e.origin = .tallyRead o i ∨ e.origin = .tallyWrite o i)
        ∧ c = .memoryTimeout ∧ s.memory.timer = some 0 ∧ k = .memTimeout
        ∧ x = (s.setFlag .memTimeout).offer (.ofFault t.agent t.cell (.region t.region) k)) →
    ∃ m : Monitor,
      exec c s =
        .next { x with
          memory := { s.memory with
            outstanding := rest
            timer :=
              if rest = [] then none
              else if s.loader.memoryTimeout = 0 then none else some s.loader.memoryTimeout }
          tally := { s.tally with slots := s.tally.slots.set i none }
          ports := s.ports.set (portOf t.agent)
            (if t.epoch = q.epoch then q.complete t.id { cause := k, data := [] } else q.finish t.id)
          monitor := m }
      ∧ m.table = s.monitor.table ∧ m.slots = s.monitor.slots ∧ m.waitList = s.monitor.waitList
      ∧ ∀ a, m.ctx a =
          if a = t.agent ∧ t.epoch = q.epoch then { s.monitor.ctx a with verdict := k } else s.monitor.ctx a)
    ∧ ∀ (t : Tally) (r : Response), r = { cause := t.outcome, data := [] } →
      r.status = .okay ∧ (r.cause = .saturated ↔ ∃ v, t.phase = .writing v true)
        ∧ (r.cause = .none ↔ ¬∃ v, t.phase = .writing v true)

/-! ### The policy block -/

/-- The validity of a policy block (R131 to R134): the bytes read make a block exactly when conditions 1 to 8 hold, with every field read at its
place of section 11.2, least significant byte first; and the block holds the fields. -/
def Obligations.ValidBlockConditions : Prop :=
  ∀ (g : Nat) (bytes : List Byte) (f : Nat → Nat → Nat) (c : Nat),
    (∀ off n, f off n = leField bytes off n) → c = f 12 1 → bytes.length = 24 + 24 * c →
    ((validBlock g bytes).isSome = true ↔
      f 0 4 = 0x574C3432 ∧ c ≤ 16 ∧ (f 13 1 = 0 ∧ f 14 1 = 0 ∧ f 15 1 = 0 ∧ f 20 4 = 0) ∧ 1 ≤ f 16 2
        ∧ ((List.range (6 + 6 * c)).map (fun k => f (4 * k) 4)).sum % 2 ^ 32 = 0
        ∧ (∀ i d, i < c → d = 24 + 24 * i →
            f d 4 < 0x100000 ∧ 1 ≤ f (d + 4) 4 ∧ f d 4 + f (d + 4) 4 ≤ 0x100000 ∧ f (d + 8) 1 ≤ 3
              ∧ (if f (d + 8) 1 = 2 then f (d + 9) 1 ≤ 1 else f (d + 9) 1 = 0)
              ∧ (if f (d + 8) 1 = 1 then
                  f (d + 10) 1 ≤ 15 ∧ 1 ≤ f (d + 12) 2 ∧ f (d + 12) 2 ≤ 4095 ∧ 1 ≤ f (d + 14) 2 ∧ f (d + 14) 2 ≤ 4095
                else f (d + 10) 1 = 0 ∧ f (d + 12) 2 = 0 ∧ f (d + 14) 2 = 0)
              ∧ (f (d + 8) 1 ≠ 3 → f (d + 16) 2 = 0) ∧ f (d + 11) 1 = 0 ∧ f (d + 18) 6 = 0)
        ∧ (∀ i j n, i < j → j < c →
            ¬((f (24 + 24 * i) 4 ≤ n ∧ n < f (24 + 24 * i) 4 + f (28 + 24 * i) 4)
              ∧ f (24 + 24 * j) 4 ≤ n ∧ n < f (24 + 24 * j) 4 + f (28 + 24 * j) 4))
        ∧ ∀ i, i < c → ¬(f (24 + 24 * i) 4 ≤ g ∧ g < f (24 + 24 * i) 4 + f (28 + 24 * i) 4))
      ∧ ∀ b, validBlock g bytes = some b →
        b.generation.toNat = f 4 4 ∧ b.entitlementLimit = f 16 2 ∧ b.memoryTimeout = f 18 2 ∧ b.regions.length = c
          ∧ ∀ (i : Nat) (r : Region), b.regions[i]? = some r →
            r.base = f (24 + 24 * i) 4 ∧ r.length = f (28 + 24 * i) 4
              ∧ match r.kind with
                | .openRegion => f (32 + 24 * i) 1 = 0
                | .guarded lease hold threshold =>
                  f (32 + 24 * i) 1 = 1 ∧ lease = f (36 + 24 * i) 2 ∧ hold = f (38 + 24 * i) 2 ∧ threshold = f (34 + 24 * i) 1
                | .tally mode => f (32 + 24 * i) 1 = 2 ∧ f (33 + 24 * i) 1 = (match mode with | .wrap => 0 | .saturate => 1)
                | .fenced writers => f (32 + 24 * i) 1 = 3 ∧ writers.toNat = f (40 + 24 * i) 2

/-- A loader read retired OKAY, in a read of the block that goes on (R135): its bytes are taken; after the last header read of an accepted header
that declares regions, the 3 × c descriptor reads are asked for in ascending address order. Nothing else changes. That no read asked for issues
inside this step is the model's choice (assumption 25). -/
def Obligations.LoaderReadGoesOn : Prop :=
  ∀ (s : State) (e : OutEntry) (rest : List OutEntry) (b b1 : BlockRead) (data : BitVec 512) (bytes : List Byte),
    s.memory.outstanding = e :: rest → e.origin = .loaderRead → s.loader.reading = some b → b.failed = false →
    bytes = b.bytes ++ laneBytes e.tx.len.bytes data →
    ((b.asked ≠ [] ∨ ∃ x ∈ rest, x.origin = .loaderRead) ∧ b1 = { b with bytes := bytes }
      ∨ b.asked = [] ∧ (∀ x ∈ rest, x.origin ≠ .loaderRead) ∧ b.count = none
        ∧ leField bytes 0 4 = 0x574C3432 ∧ 1 ≤ leField bytes 12 1 ∧ leField bytes 12 1 ≤ 16
        ∧ b1 =
          { asked := (List.range (3 * leField bytes 12 1)).map
              (fun k => Config.policyBase s.loader.pbase + BitVec.ofNat 32 (24 + 8 * k))
            bytes := bytes, count := some (leField bytes 12 1), failed := false }) →
    exec (.memoryResponse e.tx.tag true data) s =
      .next { s with
        memory := { s.memory with
          outstanding := rest
          timer :=
            if rest = [] then none
            else if s.loader.memoryTimeout = 0 then none else some s.loader.memoryTimeout }
        loader := { s.loader with reading := some b1 } }

/-- The read of the block ends with the retirement, OKAY, of the last loader read (R135, R138, R139, R143, R144): valid or invalid, at start-up or
in a reload. A valid block becomes live and, in a reload, the monitor drop is taken; an invalid one changes no live value. The flag, the CONTROL
record and RUNNING follow; nothing else changes. That its drop puts DROPPED entries behind an EXPIRED entry of a hold-limit expiry taken before,
which R84 calls the newest, is the model's choice (assumption 26). -/
def Obligations.BlockReadEnds : Prop :=
  ∀ (s x : State) (e : OutEntry) (rest : List OutEntry) (b : BlockRead) (data : BitVec 512) (bytes : List Byte)
    (block : Option Block) (live : Loader) (m : Monitor),
    s.memory.outstanding = e :: rest → e.origin = .loaderRead → (∀ y ∈ rest, y.origin ≠ .loaderRead) →
    s.loader.reading = some b → b.failed = false → b.asked = [] →
    bytes = b.bytes ++ laneBytes e.tx.len.bytes data →
    (b.count ≠ none ∧ block = validBlock s.loader.policyGranule bytes
      ∨ b.count = none ∧ leField bytes 12 1 = 0 ∧ block = validBlock s.loader.policyGranule bytes
      ∨ b.count = none ∧ (leField bytes 0 4 ≠ 0x574C3432 ∨ 16 < leField bytes 12 1) ∧ block = none) →
    live =
      (match block with
      | some k =>
        { s.loader with
          regions := k.regions, generation := k.generation, entitlementLimit := k.entitlementLimit
          memoryTimeout := k.memoryTimeout, valid := true, part := .running, reading := none }
      | none => { s.loader with part := .running, reading := none }) →
    (s.loader.part = .loading ∧ m = s.monitor
        ∧ x = (if block.isSome then s.offer (.ofControl none .loadOk)
          else (s.setFlag .loadInvalid).offer (.ofControl none .loadInvalid))
      ∨ s.loader.part = .fetching ∧ m = (if block.isSome then s.monitor.drop else s.monitor)
        ∧ x = (if block.isSome then (s.setFlag .reloadApplied).offer (.ofControl none .reloadOk)
          else (s.setFlag .reloadRejected).offer (.ofControl none .reloadRejected))) →
    exec (.memoryResponse e.tx.tag true data) s =
      .next { x with
        memory := { s.memory with
          outstanding := rest
          timer :=
            if rest = [] then none
            else if s.loader.memoryTimeout = 0 then none else some s.loader.memoryTimeout }
        loader := live
        monitor := m }

/-- A loader read fails, or one returns after a failure (R123, R125, R136): the flag is set for the failed read and no FAULT record is offered;
the reads not issued are withdrawn; while a loader read is outstanding the read of the block goes on, its data discarded; with the last one
retired it ends invalid. That a read can be asked for and not issued while a place is free is the model's choice (assumption 25). -/
def Obligations.LoaderReadFails : Prop :=
  ∀ (s x : State) (e : OutEntry) (rest : List OutEntry) (b : BlockRead) (c : Instr),
    s.memory.outstanding = e :: rest → e.origin = .loaderRead → s.loader.reading = some b →
    ((∃ data, c = .memoryResponse e.tx.tag false data) ∧ x = s.setFlag .memError
      ∨ c = .memoryTimeout ∧ s.memory.timer = some 0 ∧ x = s.setFlag .memTimeout
      ∨ (∃ data, c = .memoryResponse e.tx.tag true data) ∧ b.failed = true ∧ b.asked = [] ∧ x = s) →
    ((∃ y ∈ rest, y.origin = .loaderRead) →
        exec c s =
          .next { x with
            memory := { s.memory with
              outstanding := rest
              timer :=
                if rest = [] then none
                else if s.loader.memoryTimeout = 0 then none else some s.loader.memoryTimeout }
            loader := { s.loader with reading := some { b with asked := [], failed := true } } })
      ∧ ∀ (f : CauseFlag) (k : ControlCode), (∀ y ∈ rest, y.origin ≠ .loaderRead) →
        (s.loader.part = .loading ∧ f = .loadInvalid ∧ k = .loadInvalid
          ∨ s.loader.part = .fetching ∧ f = .reloadRejected ∧ k = .reloadRejected) →
        exec c s =
          .next { (x.setFlag f).offer (.ofControl none k) with
            memory := { s.memory with
              outstanding := rest
              timer :=
                if rest = [] then none
                else if s.loader.memoryTimeout = 0 then none else some s.loader.memoryTimeout }
            loader := { s.loader with part := .running, reading := none } }

/-- The OKAY completion of a trigger write (R19, R122, R140, R141): beside what every forwarded write does, a RUNNING part becomes DRAINING, or
FETCHING at once when nothing is outstanding and every tally slot is FREE; in DRAINING the trigger is absorbed. FETCHING is taken from DRAINING
exactly when both conditions hold, and begins the read of the block. The model's choices in this: a trigger in LOADING or FETCHING, which cannot
come, is absorbed (assumption 15); FETCHING follows a draining as a command of its own (assumption 14), which changes nothing while the state does
not enable it (assumption 1); the header reads it asks for issue by later commands (assumption 25). -/
def Obligations.ReloadStarts : Prop :=
  (∀ (s t0 : State) (e : OutEntry) (rest : List OutEntry) (o : Owner) (id : Nat) (d : Disposition) (data : BitVec 512)
      (start : BlockRead),
      s.memory.outstanding = e :: rest → e.origin = .agentRequest o id d true →
      start =
        { asked := [Config.policyBase s.loader.pbase, Config.policyBase s.loader.pbase + 8,
            Config.policyBase s.loader.pbase + 16]
          bytes := [], count := none, failed := false } →
      exec (.memoryResponse e.tx.tag true data)
        { s with memory := { s.memory with outstanding := { e with origin := .agentRequest o id d false } :: rest } }
          = .next t0 →
      exec (.memoryResponse e.tx.tag true data) s =
        .next
          (match s.loader.part with
          | .running =>
            if rest = [] ∧ s.tally.slots = Four.all none then
              { t0 with loader := { s.loader with part := .fetching, reading := some start } }
            else { t0 with loader := { s.loader with part := .draining } }
          | .loading => t0
          | .draining => t0
          | .fetching => t0))
    ∧ ∀ (s : State) (start : BlockRead),
      start =
        { asked := [Config.policyBase s.loader.pbase, Config.policyBase s.loader.pbase + 8,
            Config.policyBase s.loader.pbase + 16]
          bytes := [], count := none, failed := false } →
      exec .fetching s =
        if s.loader.part = .draining ∧ s.memory.outstanding = [] ∧ s.tally.slots = Four.all none then
          .next { s with loader := { s.loader with part := .fetching, reading := some start } }
        else .next s


/-! ### The tick and the expiries -/

/-- A tick (R30, R72, R79, R124, R146): the time base advances by 1, from FFFFFFFFH to 0; every lease, entitlement and hold and the running timer
go down by 1; nothing else changes. What ran out at the tick before is `due`. Where its expiries have not been taken by commands of their
own, in the order chosen there (R34, R71), they are taken before the tick: no entry, entitlement or hold outlives its last tick by another,
and with nothing due nothing is taken. Nor does one outlive its last tick into a guarded request: the request is admitted as it is after the
expiries (R30: taking the tick first ends the entry). That they may come as commands of their own is the model's choice (assumption 2). -/
def Obligations.TickCountsDown : Prop :=
  ∀ (s u v : State) (due : List Instr),
    due =
      (s.monitor.table.filter (fun e => e.lease == 0)).map (fun e => Instr.leaseExpiry e.agent e.cell)
        ++ ([0, 1, 2, 3] : List SlotIx).flatMap (fun i => [Instr.entitlementExpiry i, Instr.holdLimitExpiry i]) →
    u = s.afterAll due → v = u.afterAll [Instr.memoryTimeout] →
    (∃ m : Monitor,
      exec .timeBaseTick s =
        .next { v with
          capture := { v.capture with timeBase := s.capture.timeBase + 1 }
          monitor := m
          memory := { v.memory with timer := v.memory.timer.map (fun n => n - 1) } }
      ∧ m.table = v.monitor.table.map (fun e => { e with lease := e.lease - 1 })
      ∧ (∀ i, m.slots.get i =
          match v.monitor.slots.get i with
          | .free => .free
          | .entitled a n => .entitled a (n - 1)
          | .holding a c r n => .holding a c r (n - 1))
      ∧ m.waitList = v.monitor.waitList ∧ ∀ a, m.ctx a = v.monitor.ctx a)
    ∧ (s.monitor.noneRunOut → u = s)
    ∧ (s.memory.timer ≠ some 0 → v = u)
    ∧ (s.monitor.lawful → 0 < s.loader.entitlementLimit →
      u.monitor.noneRunOut ∧ u.memory = s.memory ∧ u.ports = s.ports ∧ u.loader = s.loader
        ∧ ∀ g, s.winner = some g → g.cls.disp = .guardedRead ∨ g.cls.disp = .guardedWrite →
          u.winner = some g ∧ exec .admission s = exec .admission u)

/-- The lease expiry of an entry whose lease has run out (R31): the entry is removed, its agent receives a loss entry EXPIRED by the rule of R36,
one EXPIRE record is offered, and nothing else changes: no flag but FROZEN if the record freezes the capture, no other entry, no streak,
counter or verdict. -/
def Obligations.LeaseExpiryResult : Prop :=
  ∀ (s : State) (e : TableEntry), s.monitor.tableLawful → e ∈ s.monitor.table → e.lease = 0 →
    ∃ m : Monitor,
      exec (.leaseExpiry e.agent e.cell) s =
        .next { s.offer (.ofExpire e.agent e.cell (.region e.region)) with monitor := m }
      ∧ m.table = s.monitor.table.filter (fun x => x != e)
      ∧ m.slots = s.monitor.slots ∧ m.waitList = s.monitor.waitList
      ∧ ∀ a, m.ctx a =
          if a = e.agent then { s.monitor.ctx a with loss := insertLoss (s.monitor.ctx a).loss e.cell .expired }
          else s.monitor.ctx a

/-- The entitlement expiry (R75) and the hold-limit expiry (R79) of a slot whose count has run out, with promotion (R71): the slot becomes FREE,
its agent NORMAL (a holder with a loss entry EXPIRED for its cell), a RELEASE record with cause EXPIRED is offered, and the oldest waiter, if
any, takes the slot with an ENTITLE record. Streaks, counters, verdicts and the table stay. -/
def Obligations.SlotExpiries : Prop :=
  ∀ (s : State) (i : SlotIx) (a : Agent) (c : Instr) (held : Option (Addr × Nat)), s.monitor.lawful →
    (c = .entitlementExpiry i ∧ s.monitor.slots.get i = .entitled a 0 ∧ held = none
      ∨ c = .holdLimitExpiry i ∧ ∃ cell region, s.monitor.slots.get i = .holding a cell region 0 ∧ held = some (cell, region)) →
    ∃ m : Monitor,
      exec c s =
        .next { s.offerAll
            (.ofRelease a (held.map (fun x => (x.1, .region x.2))) .expired
              :: (s.monitor.waitList.take 1).map .ofEntitle) with
          monitor := m }
      ∧ m.table = s.monitor.table
      ∧ m.slots = s.monitor.slots.set i
          (match s.monitor.waitList with
          | [] => .free
          | w :: _ => .entitled w s.loader.entitlementLimit)
      ∧ m.waitList = s.monitor.waitList.tail
      ∧ ∀ b, m.ctx b =
          if b = a then
            { s.monitor.ctx b with
              state := .normal
              loss :=
                match held with
                | none => (s.monitor.ctx b).loss
                | some x => insertLoss (s.monitor.ctx b).loss x.1 .expired }
          else if s.monitor.waitList.head? = some b then { s.monitor.ctx b with state := .entitled }
          else s.monitor.ctx b

/-! ### The reservation monitor as a whole -/

/-- The laws of the table, the loss lists, the slots, the wait list, the holders and the counters (R21, R25, R35, R58, R65, R70) are kept by every
step. -/
def Obligations.MonitorLawKept : Prop :=
  ∀ s t : State, s.monitor.lawful → step s = .next t → t.monitor.lawful

/-- The wait list never holds more than 12 agents (R70). -/
def Obligations.WaitListAtMostTwelve : Prop :=
  ∀ m : Monitor, m.lawful → m.waitList.length ≤ 12

/-- The insertion of a loss entry (R36): the new entry stands newest; of the old ones an entry for the same cell leaves, else the oldest of four,
else none; the rest keep their order, and the law of R35 is kept. -/
def Obligations.LossInsertion : Prop :=
  ∀ (l : List LossEntry) (c : Addr) (k : Cause),
    l.length ≤ 4 → l.Pairwise (fun x y => x.cell ≠ y.cell) →
    (insertLoss l c k).getLast? = some { cell := c, cause := k }
      ∧ (insertLoss l c k).length ≤ 4
      ∧ (insertLoss l c k).Pairwise (fun x y => x.cell ≠ y.cell)
      ∧ (∀ before x after, l = before ++ x :: after → x.cell = c → (insertLoss l c k).dropLast = before ++ after)
      ∧ ((∀ x ∈ l, x.cell ≠ c) → (insertLoss l c k).dropLast = if l.length = 4 then l.tail else l)

/-- MONITOR_RESET (R41, R63, R83, R170): the table, the slots and the wait list are emptied; each agent's loss list receives its entries' cells,
oldest first, and then the cell it held, with cause DROPPED; every agent becomes NORMAL with streak 0, its counters and verdict kept; one CONTROL
record is offered, the frame is answered ACK, and nothing else changes. That those cells come behind an EXPIRED entry of a hold-limit expiry taken
before, which R84 calls the newest, is the model's choice (assumption 26). -/
def Obligations.MonitorResetDrops : Prop :=
  ∀ s : State, s.link.frame ≠ .awaitRise →
    ∃ m : Monitor,
      exec .monitorReset s =
        .next { (s.offer (.ofControl none .monitorReset)).answered .ack [] .nothing with monitor := m }
      ∧ m.table = [] ∧ (∀ i, m.slots.get i = .free) ∧ m.waitList = []
      ∧ ∀ a, m.ctx a =
          { s.monitor.ctx a with
            state := .normal
            streak := 0
            loss :=
              ((s.monitor.table.filter (fun e => e.agent == a)).map (fun e => e.cell)
                ++ s.monitor.slots.toList.filterMap (fun h =>
                  match h with
                  | .free => none
                  | .entitled _ _ => none
                  | .holding b c _ _ => if b = a then some c else none)).foldl
                (fun l c => insertLoss l c .dropped) (s.monitor.ctx a).loss }

/-! ### The capture unit -/

/-- CAPTURE_ARM (R157) in every capture state: the ring is emptied, both counts become 0 and the capture RUNNING; the setup, the sequence counter,
the time base and the flags stay. CAPTURE_STOP (R158): a RUNNING or TRIGGERED capture becomes FROZEN with its ring and counts as they stand,
FROZEN is set, and records taken afterwards are discarded; in OFF or FROZEN nothing of the capture changes and no flag is set. Both are
answered ACK. -/
def Obligations.ArmAndStop : Prop :=
  ∀ s : State, s.link.frame ≠ .awaitRise →
    exec .captureArm s =
        .next { s.answered .ack [] .nothing with
          capture := { s.capture with ring := [], matchCount := 0, remaining := 0, state := .running } }
      ∧ (s.capture.state = .running ∨ s.capture.state = .triggered →
        ∃ t, exec .captureStop s = .next t
          ∧ t = { (s.setFlag .frozen).answered .ack [] .nothing with capture := { s.capture with state := .frozen } }
          ∧ ∀ r, (t.offer r).capture = t.capture)
      ∧ (s.capture.state = .off ∨ s.capture.state = .frozen →
        exec .captureStop s = .next (s.answered .ack [] .nothing))

/-- CAPTURE_SETUP and CAPTURE_READ (R159, R160, R164, R179): BUSY while a capture runs; BADARG for arguments out of range (a count of 0 also with
trigger kind NONE: the model's choice, assumption 12); else the setup is replaced whole, the mask bits that R179 ignores being dropped
(assumption 23), or the held count, the returned count and the records from the start index on are returned. Nothing else changes. The bytes
of a record (11.4, 11.5) are spelled out field by field. -/
def Obligations.SetupAndRead : Prop :=
  (∀ (s : State) (x : SetupArgs) (bad : Prop), s.link.frame ≠ .awaitRise →
      (bad ↔ x.count = 0 ∨ 12 < x.triggerKind.toNat ∨ 2 < x.position.toNat
        ∨ x.matchFlags.getLsbD 1 = true ∧ x.cellMatch.toNat % 8 ≠ 0) →
      (s.capture.state = .running ∨ s.capture.state = .triggered →
          exec (.captureSetup x) s = .next (s.answered .busy [] .nothing))
        ∧ (s.capture.state = .off ∨ s.capture.state = .frozen → bad →
          exec (.captureSetup x) s = .next (s.answered .badarg [] .nothing))
        ∧ (s.capture.state = .off ∨ s.capture.state = .frozen → ¬bad →
          ∃ f : Setup,
            exec (.captureSetup x) s =
              .next { s.answered .ack [] .nothing with capture := { s.capture with setup := f } }
            ∧ f.kindMask.toNat = x.kindMask.toNat % 2 ^ 12 ∧ f.regionMask.toNat = x.regionMask.toNat % 2 ^ 17
            ∧ f.agentMask = x.agentMask
            ∧ f.triggerKind =
              ([none, some .commit, some .refuse, some .brk, some .expire, some .evict, some .displace, some .entitle,
                some .hold, some .release, some .tally, some .fault, some .control] : List (Option RecordKind)).getD
                x.triggerKind.toNat none
            ∧ f.agentMatchOn = x.matchFlags.getLsbD 0 ∧ f.agentMatch = x.agentMatch
            ∧ f.cellMatchOn = x.matchFlags.getLsbD 1 ∧ f.cellMatch = x.cellMatch ∧ f.count = x.count.toNat
            ∧ f.position = (if x.position = 0 then .lead else if x.position = 1 then .centre else .trail)))
    ∧ (∀ (s : State) (start : Byte) (count : BitVec 16) (records : List RingRecord), s.link.frame ≠ .awaitRise →
      records = (s.capture.ring.drop start.toNat).take count.toNat →
      (s.capture.state = .running ∨ s.capture.state = .triggered →
          exec (.captureRead start count) s = .next (s.answered .busy [] .nothing))
        ∧ (s.capture.state = .off ∨ s.capture.state = .frozen →
          (count.toNat = 0 ∨ 256 < count.toNat →
              exec (.captureRead start count) s = .next (s.answered .badarg [] .nothing))
            ∧ (1 ≤ count.toNat ∧ count.toNat ≤ 256 →
              exec (.captureRead start count) s =
                .next (s.answered .ack
                  (leBytes 2 s.capture.ring.length ++ leBytes 2 records.length ++ records.flatMap RingRecord.bytes)
                  .nothing)
              ∧ records.length = min count.toNat (s.capture.ring.length - start.toNat))))
    ∧ ∀ (x : RingRecord) (r : Record) (f : Nat → Nat → Nat), r = x.record → (∀ off n, f off n = leField x.bytes off n) →
      x.bytes.length = 18 ∧ f 0 4 = x.seq.toNat ∧ f 4 4 = x.time.toNat
        ∧ ([.commit, .refuse, .brk, .expire, .evict, .displace, .entitle, .hold, .release, .tally, .fault, .control]
            : List RecordKind)[f 8 1 - 1]? = some r.kind
        ∧ 1 ≤ f 8 1
        ∧ f 9 1 = (if r.agent = none then 0 else 1) + (if r.place = none then 0 else 2) + (if r.cause = none then 0 else 4)
            + (if r.control = none then 0 else 8) + (if r.other = none then 0 else 16)
        ∧ f 10 1 = (match r.agent with | some a => a.val | none => 0)
        ∧ f 11 1 = (match r.other with | some a => a.val | none => 0)
        ∧ f 12 1 = (match r.place with | some (_, .region i) => i % 256 | some (_, .default) => 16 | none => 0)
        ∧ (∀ k, r.cause = some k →
            ([.none, .noReservation, .broken, .expired, .evicted, .displaced, .held, .fenced, .dropped, .misaligned, .straddle,
              .burstInGuard, .narrowTally, .memError, .memTimeout, .saturated] : List Cause)[f 13 1]? = some k)
        ∧ (∀ k, r.cause = none → r.control = some k → 1 ≤ f 13 1 ∧
            ([.loadOk, .loadInvalid, .reloadOk, .reloadRejected, .monitorReset, .portReset]
              : List ControlCode)[f 13 1 - 1]? = some k)
        ∧ (r.cause = none → r.control = none → f 13 1 = 0)
        ∧ f 14 4 = (match r.place with | some (c, _) => c.toNat | none => 0)

/-- The positions (R151 to R156). A record freezes the capture exactly when it is the trigger record of a LEAD capture, or the one that spends the
post-trigger count; it then sets FROZEN, and no other record sets a flag. A RUNNING capture takes its trigger record `r` and then `after`, all of which pass the filter. LEAD freezes at
once with `r` newest. CENTRE freezes exactly when 128 have followed, and then holds at most 127 earlier records, `r` and the 128. TRAIL
freezes exactly when 255 have followed, and then holds `r` and those 255. -/
def Obligations.PositionsFreeze : Prop :=
  (∀ (c : Capture) (r : Record) (after : List Record) (d : Capture) (held : List Record),
    c.state = .running → c.ring.length ≤ 256 → c.setup.passes r = true → c.setup.matchesTrigger r = true →
    c.matchCount + 1 = c.setup.count → (∀ x ∈ after, c.setup.passes x = true) →
    d = after.foldl Capture.take (c.take r) → held = c.ring.map (fun x => x.record) →
    (c.setup.position = .lead →
        d.state = .frozen ∧ d.ring.map (fun x => x.record) = held.drop (c.ring.length - 255) ++ [r])
      ∧ (c.setup.position = .centre →
        (after.length < 128 → d.state = .triggered)
          ∧ (after.length = 128 →
            d.state = .frozen
              ∧ d.ring.map (fun x => x.record) = held.drop (c.ring.length - 127) ++ r :: after))
      ∧ (c.setup.position = .trail →
        (after.length < 255 → d.state = .triggered)
          ∧ (after.length = 255 → d.state = .frozen ∧ d.ring.map (fun x => x.record) = r :: after)))
    ∧ ∀ (s : State) (r : Record) (freezes : Prop),
      (freezes ↔ s.capture.setup.passes r = true
        ∧ (s.capture.state = .running ∧ s.capture.setup.matchesTrigger r = true
            ∧ s.capture.matchCount + 1 = s.capture.setup.count ∧ s.capture.setup.position = .lead
          ∨ s.capture.state = .triggered ∧ s.capture.remaining ≤ 1)) →
      (freezes →
          (s.capture.take r).state = .frozen
            ∧ s.offer r =
              { s with
                capture := s.capture.take r
                attention :=
                  { flags := s.attention.flags ||| 0x01#8, mask := s.attention.mask
                    marks := s.attention.marks.map (fun m => m ||| 0x01#8) } })
        ∧ (¬freezes →
          ((s.capture.take r).state = .frozen ↔ s.capture.state = .frozen)
            ∧ s.offer r = { s with capture := s.capture.take r })

/-- The filter (R150) and the trigger's match (R153), and what a RUNNING capture does with a record that is not the trigger record (R149, R152):
one that fails the filter, or comes in OFF or FROZEN, changes nothing; one that passes is appended, the oldest of 256 leaving, with the next
sequence number and the time base, and counts if it matches. The fields that each kind of record carries (R147) are spelled out for every
statement that names a record. -/
def Obligations.FilterMatchAndAppend : Prop :=
  (∀ (f : Setup) (r : Record),
      (f.passes r = true ↔
        f.kindMask.getLsbD (r.kind.code - 1) = true
          ∧ (∀ c i, r.place = some (c, .region i) → f.regionMask.getLsbD i = true)
          ∧ (∀ c, r.place = some (c, .default) → f.regionMask.getLsbD 16 = true)
          ∧ ∀ a, r.agent = some a → f.agentMask.getLsbD a.val = true)
        ∧ (f.matchesTrigger r = true ↔
          f.triggerKind = some r.kind
            ∧ (f.agentMatchOn = true → ∃ a, r.agent = some a ∧ a.val = f.agentMatch.toNat % 16)
            ∧ (f.cellMatchOn = true → ∃ ix, r.place = some (f.cellMatch, ix))))
    ∧ (∀ (c : Capture) (r : Record),
      (c.state = .off ∨ c.state = .frozen ∨ c.setup.passes r = false → c.take r = c)
        ∧ (c.state = .running → c.setup.passes r = true →
          (c.setup.matchesTrigger r = true → c.matchCount + 1 ≠ c.setup.count) →
          c.take r =
            { c with
              ring := (if c.ring.length < 256 then c.ring else c.ring.tail)
                ++ [{ seq := c.nextSeq, time := c.timeBase, record := r }]
              nextSeq := c.nextSeq + 1
              matchCount := if c.setup.matchesTrigger r then c.matchCount + 1 else c.matchCount }))
    ∧ ∀ (a b : Agent) (c : Addr) (ix : RegionIx) (place : Option (Addr × RegionIx)) (k : Cause) (whose : Option Agent)
      (code : ControlCode) (f : RecordKind → Option Cause → Option Agent → Record),
      (∀ kind cause other, f kind cause other =
        { kind := kind, agent := some a, place := some (c, ix), cause := cause, control := none, other := other }) →
      Record.ofCommit a c ix = f .commit none none ∧ Record.ofRefuse a c ix k = f .refuse (some k) none
        ∧ Record.ofBreak a c ix b = f .brk none (some b) ∧ Record.ofExpire a c ix = f .expire none none
        ∧ Record.ofEvict a c ix b = f .evict none (some b) ∧ Record.ofDisplace a c ix = f .displace none none
        ∧ Record.ofHold a c ix = f .hold none none ∧ Record.ofTally a c ix k = f .tally (some k) none
        ∧ Record.ofFault a c ix k = f .fault (some k) none
        ∧ Record.ofEntitle a =
          { kind := .entitle, agent := some a, place := none, cause := none, control := none, other := none }
        ∧ Record.ofRelease a place k =
          { kind := .release, agent := some a, place := place, cause := some k, control := none, other := none }
        ∧ Record.ofControl whose code =
          { kind := .control, agent := whose, place := none, cause := none, control := some code, other := none }

/-- The law of the capture ring (R149: at most 256 records, their sequence numbers consecutive up to the counter) and the law of the renewal
marks (R172: they exist exactly while a CAUSES frame is past its point of effect) are kept by every step. -/
def Obligations.CaptureAndMarksLawsKept : Prop :=
  (∀ s t : State, s.capture.lawful → step s = .next t → t.capture.lawful)
    ∧ ∀ s t : State, s.marksLawful → step s = .next t → t.marksLawful

/-- The capture unit and the cause flags take no part in the traffic: whatever they hold, a command that does not come over the link does the same
to every other block (block overview of 00_scope.md: they report on the data path). -/
def Obligations.CaptureTakesNoPart : Prop :=
  ∀ (c : Instr) (s : State) (cap : Capture) (att : Attention), c.overLink = false →
    ∃ t cap1 att1, exec c s = .next t
      ∧ exec c { s with capture := cap, attention := att } = .next { t with capture := cap1, attention := att1 }

/-! ### The maintenance link -/

/-- The snapshots (R164 to R168, R178, R179): each is answered ACK (REGION above 15, AGENT out of range: BADARG; an unknown command byte: BADCMD)
and changes nothing but the frame; the data have the lengths of 11.3, and every field of STATUS, RESERVATIONS, HOLDS and REGION is read back
from its place, with the codes of 11.5; what does not apply to a slot or a region is 0. The bit of each cause flag in the flags byte (R171,
11.5) is spelled out: a set request sets that bit of what STATUS and CAUSES return, and no other. -/
def Obligations.SnapshotsOnlyReply : Prop :=
  ∀ s : State, s.link.frame ≠ .awaitRise →
    (exec .status s = .next (s.answered .ack s.statusBytes .nothing)
      ∧ exec .reservations s = .next (s.answered .ack s.monitor.reservationBytes .nothing)
      ∧ exec .holds s = .next (s.answered .ack s.monitor.holdBytes .nothing)
      ∧ (∀ index, exec (.region index) s =
          .next (if index.toNat ≤ 15 then s.answered .ack (s.loader.regionBytes index.toNat) .nothing
            else s.answered .badarg [] .nothing))
      ∧ (∀ number clear, 15 < number.toNat ∨ 1 < clear.toNat →
          exec (.agent number clear) s = .next (s.answered .badarg [] .nothing))
      ∧ ∀ byte, byte ∉ commandBytes → exec (.badcmd byte) s = .next (s.answered .badcmd [] .nothing))
    ∧ (∀ f : Nat → Nat → Nat, (∀ off n, f off n = leField s.statusBytes off n) →
      s.statusBytes.length = 16
        ∧ ([.loading, .running, .draining, .fetching] : List PartState)[f 0 1]? = some s.loader.part
        ∧ f 1 1 = (if s.link.pause then 1 else 0) ∧ f 2 4 = s.loader.generation.toNat
        ∧ f 6 1 = (if s.loader.valid then 1 else 0) ∧ f 7 1 = s.loader.regions.length % 256
        ∧ f 8 1 = s.monitor.table.length % 256
        ∧ f 9 1 = (([0, 1, 2, 3] : List SlotIx).filter (fun i => s.monitor.slots.get i != .free)).length
        ∧ f 10 1 = s.monitor.waitList.length % 256
        ∧ f 11 1 = (([0, 1, 2, 3] : List SlotIx).filter (fun i => (s.tally.slots.get i).isSome)).length
        ∧ f 12 1 = s.memory.outstanding.length % 256
        ∧ ([.off, .running, .triggered, .frozen] : List CaptureState)[f 13 1]? = some s.capture.state
        ∧ f 14 1 = s.attention.flags.toNat ∧ f 15 1 = s.attention.mask.toNat
        ∧ ∀ (k : Nat) (g : CauseFlag),
          ([.frozen, .loadInvalid, .reloadRejected, .reloadApplied, .memError, .memTimeout, .saturated, .eviction]
            : List CauseFlag)[k]? = some g →
          g.bit.toNat = 2 ^ k
            ∧ ∀ j, j < 8 → ((leField (s.setFlag g).statusBytes 14 1).testBit j = true ↔ (f 14 1).testBit j = true ∨ j = k))
    ∧ (∀ f : Nat → Nat → Nat, (∀ off n, f off n = leField s.monitor.reservationBytes off n) →
      s.monitor.reservationBytes.length = 1 + 8 * s.monitor.table.length
        ∧ f 0 1 = s.monitor.table.length % 256
        ∧ ∀ (k : Nat) (e : TableEntry), s.monitor.table[k]? = some e →
          f (1 + 8 * k) 1 = e.agent.val ∧ f (2 + 8 * k) 1 = e.region % 256 ∧ f (3 + 8 * k) 4 = e.cell.toNat
            ∧ f (7 + 8 * k) 2 = e.lease % 65536)
    ∧ (∀ f : Nat → Nat → Nat, (∀ off n, f off n = leField s.monitor.holdBytes off n) →
      s.monitor.holdBytes.length = 37 + s.monitor.waitList.length
        ∧ (∀ i : SlotIx,
          match s.monitor.slots.get i with
          | .free => f (9 * i.val) 9 = 0
          | .entitled a n =>
            f (9 * i.val) 1 = 1 ∧ f (9 * i.val + 1) 1 = a.val ∧ f (9 * i.val + 2) 5 = 0 ∧ f (9 * i.val + 7) 2 = n % 65536
          | .holding a c r n =>
            f (9 * i.val) 1 = 2 ∧ f (9 * i.val + 1) 1 = a.val ∧ f (9 * i.val + 2) 1 = r % 256
              ∧ f (9 * i.val + 3) 4 = c.toNat ∧ f (9 * i.val + 7) 2 = n % 65536)
        ∧ f 36 1 = s.monitor.waitList.length % 256
        ∧ ∀ (k : Nat) (a : Agent), s.monitor.waitList[k]? = some a → f (37 + k) 1 = a.val)
    ∧ ∀ (i : Nat) (f : Nat → Nat → Nat), (∀ off n, f off n = leField (s.loader.regionBytes i) off n) →
      (s.loader.regionBytes i).length = 18
        ∧ match s.loader.regions[i]? with
          | none => f 0 18 = 0
          | some r =>
            f 0 1 = 1 ∧ f 1 4 = r.base % 2 ^ 32 ∧ f 5 4 = r.length % 2 ^ 32
              ∧ match r.kind with
                | .openRegion => f 9 9 = 0
                | .guarded lease hold threshold =>
                  f 9 1 = 1 ∧ f 10 1 = 0 ∧ f 11 1 = threshold % 256 ∧ f 12 2 = lease % 65536 ∧ f 14 2 = hold % 65536 ∧ f 16 2 = 0
                | .tally mode => f 9 1 = 2 ∧ f 10 1 = (match mode with | .wrap => 0 | .saturate => 1) ∧ f 11 7 = 0
                | .fenced writers => f 9 1 = 3 ∧ f 10 6 = 0 ∧ f 16 2 = writers.toNat

/-- A CAUSES frame (R171, R172): it returns the flags as they stand and starts its marks; set requests `later` taken after the snapshot are kept;
at the completion exactly their flags are set, for what was shown and not renewed is cleared. A frame cut short clears nothing and drops its
marks. -/
def Obligations.CausesFrame : Prop :=
  ∀ (s s1 s2 : State) (later : List CauseFlag), s.link.frame ≠ .awaitRise →
    s1 = { s with
      link := { s.link with frame := .replied .ack [s.attention.flags] (.clearCauses s.attention.flags) }
      attention := { s.attention with marks := some 0 } } →
    s2 = later.foldl State.setFlag s1 →
    exec .causes s = .next s1
      ∧ (∀ f, s2.attention.flags &&& f.bit ≠ 0 ↔ s.attention.flags &&& f.bit ≠ 0 ∨ f ∈ later)
      ∧ (∃ t, exec .causesCompletion s2 = .next t
          ∧ t = { s with
              link := { s.link with frame := .between }
              attention := { flags := t.attention.flags, mask := s.attention.mask, marks := none } }
          ∧ ∀ f, t.attention.flags &&& f.bit ≠ 0 ↔ f ∈ later)
      ∧ exec .frameCutShortAfterPointOfEffect s2 =
          .next { s with
            link := { s.link with frame := .between }
            attention := { flags := s2.attention.flags, mask := s.attention.mask, marks := none } }

/-- The mask (R173): 00H after power-on reset; SETMASK replaces it whole, for every value, and is answered ACK; no other command changes it; it
changes no flag; STATUS reports it; and ATTN_n is low exactly while a flag is set whose mask bit is 0. -/
def Obligations.MaskRule : Prop :=
  (∀ (pbase ownp : Fin 4) (prst : BitVec 4) (csLow : Bool) (s : State),
      ∃ t, exec (.powerOnReset pbase ownp prst csLow) s = .next t ∧ t.attention.mask = 0)
    ∧ (∀ (mask : Byte) (s : State), s.link.frame ≠ .awaitRise →
        exec (.setmask mask) s =
          .next { s.answered .ack [] .nothing with attention := { flags := s.attention.flags, mask := mask, marks := none } })
    ∧ (∀ (c : Instr) (s t : State), exec c s = .next t → (∀ mask, c ≠ .setmask mask) →
        (∀ pbase ownp prst csLow, c ≠ .powerOnReset pbase ownp prst csLow) → t.attention.mask = s.attention.mask)
    ∧ ∀ s : State, (s.attnLow = true ↔ ∃ k, k < 8 ∧ s.attention.flags.getLsbD k = true ∧ s.attention.mask.getLsbD k = false)
        ∧ s.statusBytes[15]? = some s.attention.mask

/-- AGENT (R168) and the AGENT clear (R60): the frame returns the context, in the 29 bytes of 11.3, spelled out with the codes of 11.5; with clear
option 1 its completion lowers the two counters by the values returned, so that increments in between are kept, and nothing else; a port reset
of the agent's port in between cancels the lowering, and the completion only ends the frame; a frame cut short lowers nothing. -/
def Obligations.AgentFrames : Prop :=
  (∀ (s : State) (number clear : Byte) (a : Agent), s.link.frame ≠ .awaitRise → number.toNat = a.val → clear.toNat ≤ 1 →
      exec (.agent number clear) s =
        .next (s.answered .ack (s.monitor.ctx a).bytes
          (if clear = 1 then .lowerCounters a (s.monitor.ctx a).commits (s.monitor.ctx a).refusals else .nothing)))
    ∧ (∀ (x : AgentCtx) (f : Nat → Nat → Nat) (causes : List Cause), (∀ off n, f off n = leField x.bytes off n) →
      causes =
        [.none, .noReservation, .broken, .expired, .evicted, .displaced, .held, .fenced, .dropped, .misaligned, .straddle,
          .burstInGuard, .narrowTally, .memError, .memTimeout, .saturated] →
      x.bytes.length = 29
        ∧ ([.normal, .waiting, .entitled, .holding] : List AgentState)[f 0 1]? = some x.state
        ∧ f 1 1 = x.streak % 256 ∧ f 2 2 = x.commits % 65536 ∧ f 4 2 = x.refusals % 65536
        ∧ f 6 1 = (if x.verdict ∈ [Cause.none, .saturated] then 0
            else if x.verdict ∈ [Cause.noReservation, .broken, .expired, .evicted, .displaced, .held, .fenced, .dropped] then 1
            else 2)
        ∧ causes[f 7 1]? = some x.verdict ∧ f 8 1 = x.loss.length % 256
        ∧ ∀ k, k < 4 →
          (∀ e, x.loss[k]? = some e → f (9 + 5 * k) 4 = e.cell.toNat ∧ causes[f (13 + 5 * k) 1]? = some e.cause)
            ∧ (x.loss[k]? = none → f (9 + 5 * k) 5 = 0))
    ∧ ∀ (s : State) (st : LinkStatus) (data : List Byte) (a : Agent) (commits refusals : Nat),
      s.link.frame = .replied st data (.lowerCounters a commits refusals) →
      (∃ m : Monitor,
          exec .agentClear s = .next { s with link := { s.link with frame := .between }, monitor := m }
          ∧ m.table = s.monitor.table ∧ m.slots = s.monitor.slots ∧ m.waitList = s.monitor.waitList
          ∧ ∀ b, m.ctx b =
              if b = a then
                { s.monitor.ctx b with
                  commits := (s.monitor.ctx b).commits - commits, refusals := (s.monitor.ctx b).refusals - refusals }
              else s.monitor.ctx b)
        ∧ ((s.ports.get (portOf a)).resetAsserted = false →
            ∃ t, exec (.portReset (portOf a)) s = .next t
              ∧ exec .agentClear t = .next { t with link := { s.link with frame := .between } }
              ∧ ∀ k, t.link.frame.miso k = s.link.frame.miso k)
        ∧ ∃ t, exec .frameCutShortAfterPointOfEffect s = .next t ∧ t.monitor = s.monitor ∧ exec .agentClear t = .next t

/-- A frame that ends without completion leaves the link between frames with no marks and changes nothing else (R163, R172); that either cut-short
command is a rise of CS_n, which also ends the wait of R163, and that every frame command in that wait changes nothing, is read from R163 by
inference (assumption 10). An event that the state does not enable changes nothing, which is the model's choice (assumption 1): an expiry whose
count has not run out, and a completion without its frame. While the link waits for CS_n to rise no frame begins (R163). -/
def Obligations.FrameEndsAndIdleEvents : Prop :=
  (∀ s : State,
      exec .frameCutShort s =
          .next { s with link := { s.link with frame := .between }, attention := { s.attention with marks := none } }
        ∧ exec .frameCutShortAfterPointOfEffect s =
          .next { s with link := { s.link with frame := .between }, attention := { s.attention with marks := none } })
    ∧ (∀ (s : State) (a : Agent) (c : Addr),
        (∀ e ∈ s.monitor.table, e.agent = a → e.cell = c → e.lease ≠ 0) → exec (.leaseExpiry a c) s = .next s)
    ∧ (∀ (s : State) (i : SlotIx), (∀ a, s.monitor.slots.get i ≠ .entitled a 0) → exec (.entitlementExpiry i) s = .next s)
    ∧ (∀ (s : State) (i : SlotIx), (∀ a c r, s.monitor.slots.get i ≠ .holding a c r 0) →
        exec (.holdLimitExpiry i) s = .next s)
    ∧ (∀ s : State, (∀ st data shown, s.link.frame ≠ .replied st data (.clearCauses shown)) →
        exec .causesCompletion s = .next s)
    ∧ (∀ s : State, (∀ st data a n k, s.link.frame ≠ .replied st data (.lowerCounters a n k)) →
        (∀ st data, s.link.frame ≠ .replied st data .clearCancelled) → exec .agentClear s = .next s)
    ∧ ∀ (c : Instr) (s : State) (bytes : List Byte), encodeFrame c = some bytes → s.link.frame = .awaitRise →
        exec c s = .next s

/-- The frames of the link (R162 to R164, 11.3). MOSI: the command and argument bytes of every command, with every argument at every value and
whatever is clocked after them, decode to the command; every sequence of bytes that decodes begins with the bytes of its command; and a
frame with fewer of them decodes to none. MISO: 00H during those bytes, then the status byte, with ACK the data bytes, then 00H; BADCMD in
every byte that follows an unknown command byte. -/
def Obligations.FrameRoundTrip : Prop :=
  (∀ (c : Instr) (sent clocked : List Byte), c.wellFormed = true → encodeFrame c = some sent →
      decodeFrame (sent ++ clocked) = some c ∧ ∀ k, k < sent.length → decodeFrame (sent.take k) = none)
    ∧ (∀ (bytes : List Byte) (c : Instr), decodeFrame bytes = some c →
        c.wellFormed = true ∧ ∃ sent clocked, bytes = sent ++ clocked ∧ encodeFrame c = some sent)
    ∧ ∀ (c : Instr) (sent : List Byte) (s : State), c.wellFormed = true → encodeFrame c = some sent →
      s.link.frame ≠ .awaitRise →
      ∃ t st data done, exec c s = .next t ∧ t.link.frame = .replied st data done
        ∧ (st = .badcmd ↔ ∃ b, c = .badcmd b)
        ∧ ∀ k, t.link.frame.shiftsOut sent.length k =
          if k < sent.length then 0x00#8
          else
            match st with
            | .ack => if k = sent.length then 0x01#8 else data.getD (k - sent.length - 1) 0x00#8
            | .busy => if k = sent.length then 0x02#8 else 0x00#8
            | .badarg => if k = sent.length then 0x04#8 else 0x00#8
            | .badcmd => 0x03#8


/-! ### The policy and the memory port as a whole -/

/-- The law of the live region table (R134), and the agreement of every reservation's region index with the table (R20, R21), are kept by every
step. -/
def Obligations.PolicyLawsKept : Prop :=
  (∀ s t : State, s.loader.lawful → step s = .next t → t.loader.lawful)
    ∧ ∀ s t : State, s.regionsAgree → step s = .next t → t.regionsAgree

/-- The law of the memory port and of the tally engine (R86, R91, R117, R118, R124): at most 16 places in use, tags in issue order, tallies on
different cells, every waiting write half and every outstanding half in its slot, and no timer on an empty list; kept by every step. -/
def Obligations.MemoryPortLawKept : Prop :=
  ∀ s t : State, s.tallyTrafficLawful → s.memory.timerLawful → step s = .next t →
    t.tallyTrafficLawful ∧ t.memory.timerLawful

/-- The law of tally memory traffic (R97): from every state that meets the laws of the tallies, a step keeps them, and every write it issues to an
address in a TALLY region of the live table follows a read of the same bytes, the last transaction issued to that cell before it, which is
the read half of a tally in flight on the cell. -/
def Obligations.TallyTrafficLaw : Prop :=
  ∀ s t : State, s.tallyTrafficLawful → s.tallyCellsLawful → s.tallyHistoryLawful → step s = .next t →
    t.tallyCellsLawful ∧ t.tallyHistoryLawful
      ∧ ∀ before tx after, t.memory.issued = s.memory.issued ++ before ++ tx :: after → tx.dir = .write →
        s.loader.inTally tx.addr.toNat = true →
        ∃ i x r, s.tally.slots.get i = some x ∧ tx.isHalf .write x ∧ x.cell = cellOf tx.addr
          ∧ lastTo x.cell (s.memory.issued ++ before) = some r ∧ r.isHalf .read x
end

