-- ==== Sys2Proof/Laws/Four.lean ====
section
/-! SUPPORT. Four.lean: reading after writing in a bank of four, and agents as port and tag. -/
namespace Sys2Proof

/-- A statement about a number below four holds if it holds of each of the four. -/
theorem forall_fin_four {p : Fin 4 → Prop} : (∀ i, p i) ↔ p 0 ∧ p 1 ∧ p 2 ∧ p 3 := by
  constructor
  · intro h; exact ⟨h 0, h 1, h 2, h 3⟩
  · rintro ⟨h0, h1, h2, h3⟩ i
    match i with
    | 0 => exact h0
    | 1 => exact h1
    | 2 => exact h2
    | 3 => exact h3

@[simp] theorem Four.get_set_self {α : Type} (f : Four α) (i : Fin 4) (x : α) : (f.set i x).get i = x := by
  match i with
  | 0 => rfl
  | 1 => rfl
  | 2 => rfl
  | 3 => rfl

theorem Four.get_set_ne {α : Type} (f : Four α) {i j : Fin 4} (x : α) (h : j ≠ i) : (f.set i x).get j = f.get j := by
  revert h
  revert j
  match i with
  | 0 => exact forall_fin_four.2 ⟨fun h => absurd rfl h, fun _ => rfl, fun _ => rfl, fun _ => rfl⟩
  | 1 => exact forall_fin_four.2 ⟨fun _ => rfl, fun h => absurd rfl h, fun _ => rfl, fun _ => rfl⟩
  | 2 => exact forall_fin_four.2 ⟨fun _ => rfl, fun _ => rfl, fun h => absurd rfl h, fun _ => rfl⟩
  | 3 => exact forall_fin_four.2 ⟨fun _ => rfl, fun _ => rfl, fun _ => rfl, fun h => absurd rfl h⟩

/-- What is read from a bank after a write. -/
theorem Four.get_set {α : Type} (f : Four α) (i j : Fin 4) (x : α) :
    (f.set i x).get j = if j = i then x else f.get j := by
  by_cases h : j = i
  · subst h; simp
  · simp [h, Four.get_set_ne f x h]

@[simp] theorem Four.get_map {α : Type} (f : Four α) (g : α → α) (i : Fin 4) : (f.map g).get i = g (f.get i) := by
  match i with
  | 0 => rfl
  | 1 => rfl
  | 2 => rfl
  | 3 => rfl

@[simp] theorem Four.get_all {α : Type} (x : α) (i : Fin 4) : (Four.all x).get i = x := by
  match i with
  | 0 => rfl
  | 1 => rfl
  | 2 => rfl
  | 3 => rfl

theorem Four.mem_toList {α : Type} (f : Four α) (x : α) : x ∈ f.toList ↔ ∃ i, f.get i = x := by
  constructor
  · intro h
    simp only [Four.toList, List.mem_cons, List.not_mem_nil, or_false] at h
    rcases h with h | h | h | h
    · exact ⟨0, h.symm⟩
    · exact ⟨1, h.symm⟩
    · exact ⟨2, h.symm⟩
    · exact ⟨3, h.symm⟩
  · rintro ⟨i, h⟩
    revert h
    match i with
    | 0 => intro h; simp [Four.toList, ← h, Four.get]
    | 1 => intro h; simp [Four.toList, ← h, Four.get]
    | 2 => intro h; simp [Four.toList, ← h, Four.get]
    | 3 => intro h; simp [Four.toList, ← h, Four.get]

/-- Writing what stands there changes nothing. -/
@[simp] theorem Four.set_get {α : Type} (f : Four α) (i : Fin 4) : f.set i (f.get i) = f := by
  match i with
  | 0 => rfl
  | 1 => rfl
  | 2 => rfl
  | 3 => rfl

/-- Two banks with the same things are the same bank. -/
theorem Four.eq_of_get {α : Type} {f g : Four α} (h : ∀ i, f.get i = g.get i) : f = g := by
  obtain ⟨h0, h1, h2, h3⟩ := forall_fin_four.1 h
  cases f; cases g
  simp only [Four.get] at h0 h1 h2 h3
  subst h0; subst h1; subst h2; subst h3
  rfl

/-! ### Agents (R2) -/

@[simp] theorem portOf_agentOf (p t : Fin 4) : portOf (agentOf p t) = p := by
  apply Fin.ext; simp only [portOf, agentOf]; omega

@[simp] theorem tagOf_agentOf (p t : Fin 4) : tagOf (agentOf p t) = t := by
  apply Fin.ext; simp only [tagOf, agentOf]; omega

@[simp] theorem agentOf_portOf_tagOf (a : Agent) : agentOf (portOf a) (tagOf a) = a := by
  apply Fin.ext; simp only [portOf, tagOf, agentOf]; omega

/-- An agent is its port and its tag. -/
theorem agent_eq_iff (a b : Agent) : a = b ↔ portOf a = portOf b ∧ tagOf a = tagOf b := by
  constructor
  · rintro rfl; exact ⟨rfl, rfl⟩
  · rintro ⟨hp, ht⟩
    rw [← agentOf_portOf_tagOf a, ← agentOf_portOf_tagOf b, hp, ht]

end Sys2Proof
end

