-- ==== Sys2Proof/Laws/Monitor.lean ====
section
/-! SUPPORT. Laws/Monitor.lean: what each operation of the reservation monitor reads and leaves, and one lemma for each operation that
says the cases it can answer with. -/
namespace Sys2Proof.Machine

/-! ### Agent contexts -/

/-- Reading a context after changing one. -/
theorem Monitor.ctx_updCtx (m : Monitor) (a b : Agent) (f : AgentCtx → AgentCtx) :
    (m.updCtx a f).ctx b = if b = a then f (m.ctx a) else m.ctx b := by
  unfold Monitor.updCtx Monitor.ctx
  by_cases hp : portOf b = portOf a
  · by_cases ht : tagOf b = tagOf a
    · have h : b = a := (agent_eq_iff b a).2 ⟨hp, ht⟩
      subst h; simp
    · have h : b ≠ a := fun h => ht (by rw [h])
      simp [hp, h, Four.get_set_ne _ _ ht]
  · have h : b ≠ a := fun h => hp (by rw [h])
    simp [h, Four.get_set_ne _ _ hp]

@[simp] theorem Monitor.ctx_updCtx_self (m : Monitor) (a : Agent) (f : AgentCtx → AgentCtx) :
    (m.updCtx a f).ctx a = f (m.ctx a) := by simp [Monitor.ctx_updCtx]

theorem Monitor.ctx_updCtx_ne (m : Monitor) {a b : Agent} (f : AgentCtx → AgentCtx) (h : b ≠ a) :
    (m.updCtx a f).ctx b = m.ctx b := by simp [Monitor.ctx_updCtx, h]

@[simp] theorem Monitor.ctx_mapCtxs (m : Monitor) (f : AgentCtx → AgentCtx) (a : Agent) :
    (m.mapCtxs f).ctx a = f (m.ctx a) := by simp [Monitor.mapCtxs, Monitor.ctx]

/-- The context of an agent depends on the banks alone. -/
theorem Monitor.ctx_congr {m n : Monitor} (h : m.ctxs = n.ctxs) (a : Agent) : m.ctx a = n.ctx a := by
  simp [Monitor.ctx, h]

@[simp] theorem Monitor.updCtx_table (m : Monitor) (a : Agent) (f : AgentCtx → AgentCtx) : (m.updCtx a f).table = m.table := rfl
@[simp] theorem Monitor.updCtx_slots (m : Monitor) (a : Agent) (f : AgentCtx → AgentCtx) : (m.updCtx a f).slots = m.slots := rfl
@[simp] theorem Monitor.updCtx_waitList (m : Monitor) (a : Agent) (f : AgentCtx → AgentCtx) :
    (m.updCtx a f).waitList = m.waitList := rfl
@[simp] theorem Monitor.mapCtxs_table (m : Monitor) (f : AgentCtx → AgentCtx) : (m.mapCtxs f).table = m.table := rfl
@[simp] theorem Monitor.mapCtxs_slots (m : Monitor) (f : AgentCtx → AgentCtx) : (m.mapCtxs f).slots = m.slots := rfl
@[simp] theorem Monitor.mapCtxs_waitList (m : Monitor) (f : AgentCtx → AgentCtx) : (m.mapCtxs f).waitList = m.waitList := rfl

@[simp] theorem Monitor.setAgentState_table (m : Monitor) (a : Agent) (st : AgentState) : (m.setAgentState a st).table = m.table := rfl
@[simp] theorem Monitor.setAgentState_slots (m : Monitor) (a : Agent) (st : AgentState) : (m.setAgentState a st).slots = m.slots := rfl
@[simp] theorem Monitor.setAgentState_waitList (m : Monitor) (a : Agent) (st : AgentState) :
    (m.setAgentState a st).waitList = m.waitList := rfl
theorem Monitor.ctx_setAgentState (m : Monitor) (a b : Agent) (st : AgentState) :
    (m.setAgentState a st).ctx b = if b = a then { m.ctx a with state := st } else m.ctx b := Monitor.ctx_updCtx m a b _

@[simp] theorem Monitor.setVerdict_table (m : Monitor) (a : Agent) (k : Cause) : (m.setVerdict a k).table = m.table := rfl
@[simp] theorem Monitor.setVerdict_slots (m : Monitor) (a : Agent) (k : Cause) : (m.setVerdict a k).slots = m.slots := rfl
@[simp] theorem Monitor.setVerdict_waitList (m : Monitor) (a : Agent) (k : Cause) : (m.setVerdict a k).waitList = m.waitList := rfl
theorem Monitor.ctx_setVerdict (m : Monitor) (a b : Agent) (k : Cause) :
    (m.setVerdict a k).ctx b = if b = a then { m.ctx a with verdict := k } else m.ctx b := Monitor.ctx_updCtx m a b _

@[simp] theorem Monitor.lose_table (m : Monitor) (a : Agent) (c : Addr) (k : Cause) : (m.lose a c k).table = m.table := rfl
@[simp] theorem Monitor.lose_slots (m : Monitor) (a : Agent) (c : Addr) (k : Cause) : (m.lose a c k).slots = m.slots := rfl
@[simp] theorem Monitor.lose_waitList (m : Monitor) (a : Agent) (c : Addr) (k : Cause) : (m.lose a c k).waitList = m.waitList := rfl
theorem Monitor.ctx_lose (m : Monitor) (a b : Agent) (c : Addr) (k : Cause) :
    (m.lose a c k).ctx b =
      if b = a then { m.ctx a with loss := insertLoss (m.ctx a).loss c k } else m.ctx b := Monitor.ctx_updCtx m a b _

@[simp] theorem Monitor.forget_table (m : Monitor) (a : Agent) (c : Addr) : (m.forget a c).table = m.table := rfl
@[simp] theorem Monitor.forget_slots (m : Monitor) (a : Agent) (c : Addr) : (m.forget a c).slots = m.slots := rfl
@[simp] theorem Monitor.forget_waitList (m : Monitor) (a : Agent) (c : Addr) : (m.forget a c).waitList = m.waitList := rfl
theorem Monitor.ctx_forget (m : Monitor) (a b : Agent) (c : Addr) :
    (m.forget a c).ctx b =
      if b = a then { m.ctx a with loss := (m.ctx a).loss.filter (·.cell != c) } else m.ctx b := Monitor.ctx_updCtx m a b _

@[simp] theorem Monitor.removeEntry_slots (m : Monitor) (a : Agent) (c : Addr) : (m.removeEntry a c).slots = m.slots := rfl
@[simp] theorem Monitor.removeEntry_waitList (m : Monitor) (a : Agent) (c : Addr) : (m.removeEntry a c).waitList = m.waitList := rfl
@[simp] theorem Monitor.removeEntry_ctx (m : Monitor) (a b : Agent) (c : Addr) : (m.removeEntry a c).ctx b = m.ctx b := rfl
theorem Monitor.removeEntry_table (m : Monitor) (a : Agent) (c : Addr) :
    (m.removeEntry a c).table = m.table.filter fun e => !e.isOf a c := rfl

@[simp] theorem Monitor.setSlot_table (m : Monitor) (i : SlotIx) (h : HoldSlot) : (m.setSlot i h).table = m.table := rfl
@[simp] theorem Monitor.setSlot_waitList (m : Monitor) (i : SlotIx) (h : HoldSlot) : (m.setSlot i h).waitList = m.waitList := rfl
@[simp] theorem Monitor.setSlot_ctx (m : Monitor) (i : SlotIx) (h : HoldSlot) (a : Agent) : (m.setSlot i h).ctx a = m.ctx a := rfl
theorem Monitor.setSlot_get (m : Monitor) (i j : SlotIx) (h : HoldSlot) :
    (m.setSlot i h).slots.get j = if j = i then h else m.slots.get j := Four.get_set _ _ _ _

/-! ### Table entries -/

theorem TableEntry.isOf_iff (e : TableEntry) (a : Agent) (c : Addr) : e.isOf a c = true ↔ e.agent = a ∧ e.cell = c := by
  simp [TableEntry.isOf]

/-- The entry found is the agent's on the cell. -/
theorem Monitor.entry_some {m : Monitor} {a : Agent} {c : Addr} {e : TableEntry} (h : m.entry a c = some e) :
    e ∈ m.table ∧ e.agent = a ∧ e.cell = c :=
  ⟨List.mem_of_find?_eq_some h,
    (TableEntry.isOf_iff e a c).1 (List.find?_some (p := fun x : TableEntry => x.isOf a c) h)⟩

/-- No entry is found exactly when the table has none of the agent on the cell. -/
theorem Monitor.entry_none_iff (m : Monitor) (a : Agent) (c : Addr) :
    m.entry a c = none ↔ ∀ e ∈ m.table, ¬(e.agent = a ∧ e.cell = c) := by
  simp [Monitor.entry, TableEntry.isOf]

@[simp] theorem Monitor.entry_removeEntry_self (m : Monitor) (a : Agent) (c : Addr) : (m.removeEntry a c).entry a c = none := by
  rw [Monitor.entry_none_iff]
  intro e he
  rw [Monitor.removeEntry_table, List.mem_filter] at he
  simpa [TableEntry.isOf, Decidable.imp_iff_not_or] using he.2

/-- The entry of another agent or another cell survives a removal. -/
theorem Monitor.mem_removeEntry (m : Monitor) (a : Agent) (c : Addr) (e : TableEntry) :
    e ∈ (m.removeEntry a c).table ↔ e ∈ m.table ∧ ¬(e.agent = a ∧ e.cell = c) := by
  simp [Monitor.removeEntry_table, TableEntry.isOf, Decidable.imp_iff_not_or]

/-! ### Loss lists -/

theorem insertLoss_length {l : List LossEntry} (c : Addr) (k : Cause) (h : l.length ≤ Config.lossSize) :
    (insertLoss l c k).length ≤ Config.lossSize := by
  unfold insertLoss
  split
  · rename_i hc
    obtain ⟨x, hx, hxc⟩ := List.any_eq_true.1 hc
    have : (l.filter (·.cell != c)).length < l.length :=
      List.length_filter_lt_length_iff_exists.2 ⟨x, hx, by simpa using hxc⟩
    simp only [List.length_append, List.length_cons, List.length_nil]; omega
  · split
    · simp only [List.length_append, List.length_drop, List.length_cons, List.length_nil]
      simp only [Config.lossSize] at *; omega
    · simp only [List.length_append, List.length_cons, List.length_nil]; omega

/-- What is in the list after an insertion: the new entry, and of the old ones none for its cell. -/
theorem mem_insertLoss {l : List LossEntry} {c : Addr} {k : Cause} {x : LossEntry} (h : x ∈ insertLoss l c k) :
    x = { cell := c, cause := k } ∨ (x ∈ l ∧ x.cell ≠ c) := by
  unfold insertLoss at h
  split at h
  · simp only [List.mem_append, List.mem_filter, List.mem_singleton, bne_iff_ne] at h
    exact h.symm
  · rename_i hc
    have hn : ∀ y ∈ l, y.cell ≠ c := by
      intro y hy hyc; exact hc (List.any_eq_true.2 ⟨y, hy, by simpa using hyc⟩)
    split at h
    · simp only [List.mem_append, List.mem_singleton] at h
      rcases h with h | h
      · exact .inr ⟨List.mem_of_mem_drop h, hn x (List.mem_of_mem_drop h)⟩
      · exact .inl h
    · simp only [List.mem_append, List.mem_singleton] at h
      rcases h with h | h
      · exact .inr ⟨h, hn x h⟩
      · exact .inl h

/-- The newest entry of a list after an insertion. -/
@[simp] theorem insertLoss_getLast? (l : List LossEntry) (c : Addr) (k : Cause) :
    (insertLoss l c k).getLast? = some { cell := c, cause := k } := by
  unfold insertLoss; split
  · simp
  · split <;> simp

/-! ### Hold slots -/

theorem HoldSlot.entitles_iff (h : HoldSlot) (a : Agent) : h.entitles a = true ↔ ∃ n, h = .entitled a n := by
  cases h <;> simp [HoldSlot.entitles]

theorem HoldSlot.holds_iff (h : HoldSlot) (a : Agent) (c : Addr) : h.holds a c = true ↔ ∃ r n, h = .holding a c r n := by
  cases h <;> simp [HoldSlot.holds]

theorem HoldSlot.isFree_iff (h : HoldSlot) : h.isFree = true ↔ h = .free := by cases h <;> simp [HoldSlot.isFree]

/-- The slot found has the property, and no lower-numbered one has. -/
theorem Monitor.findSlot_some {m : Monitor} {p : HoldSlot → Bool} {i : SlotIx} (h : m.findSlot p = some i) :
    p (m.slots.get i) = true ∧ ∀ j, j < i → p (m.slots.get j) = false := by
  unfold Monitor.findSlot at h
  simp only [List.find?_cons, List.find?_nil] at h
  refine ⟨?_, forall_fin_four.2 ?_⟩ <;> revert h <;> cases h0 : p (m.slots.get 0) <;> cases h1 : p (m.slots.get 1) <;>
    cases h2 : p (m.slots.get 2) <;> cases h3 : p (m.slots.get 3) <;> simp <;> rintro rfl <;> simp_all

/-- No slot is found exactly when none has the property. -/
theorem Monitor.findSlot_none (m : Monitor) (p : HoldSlot → Bool) :
    m.findSlot p = none ↔ ∀ i, p (m.slots.get i) = false := by
  rw [forall_fin_four]
  simp [Monitor.findSlot]

/-! ### What each operation can answer with -/

/-- Promotion (R71): nothing while the wait list is empty, else the oldest waiter is entitled. -/
theorem Monitor.promote_cases (m : Monitor) (i : SlotIx) (limit : Nat) :
    (m.waitList = [] ∧ m.promote i limit = { monitor := m, records := [] })
      ∨ ∃ w rest, m.waitList = w :: rest ∧
          m.promote i limit =
            { monitor := (({ m with waitList := rest } : Monitor).setSlot i (.entitled w limit)).setAgentState w .entitled
              records := [.ofEntitle w] } := by
  unfold Monitor.promote
  split
  · rename_i h; exact .inl ⟨h, rfl⟩
  · rename_i w rest h; exact .inr ⟨w, rest, h, rfl⟩

/-- The escalation check (R66 to R68). -/
theorem Monitor.escalationCheck_cases (m : Monitor) (a : Agent) (threshold limit : Nat) :
    (¬(threshold ≠ 0 ∧ (m.ctx a).state = .normal ∧ threshold ≤ (m.ctx a).streak)
        ∧ m.escalationCheck a threshold limit = { monitor := m, records := [] })
      ∨ ((threshold ≠ 0 ∧ (m.ctx a).state = .normal ∧ threshold ≤ (m.ctx a).streak)
        ∧ ((∃ i, m.findSlot (·.isFree) = some i ∧
              m.escalationCheck a threshold limit = (m.updCtx a fun x => { x with streak := 0 }).entitle a i limit)
          ∨ (m.findSlot (·.isFree) = none ∧
              m.escalationCheck a threshold limit =
                { monitor :=
                    ({ m.updCtx a fun x => { x with streak := 0 } with waitList := m.waitList ++ [a] } : Monitor).setAgentState a
                      .waiting
                  records := [] }))) := by
  unfold Monitor.escalationCheck
  by_cases h : threshold ≠ 0 ∧ (m.ctx a).state = .normal ∧ threshold ≤ (m.ctx a).streak
  · rw [if_pos h]
    refine .inr ⟨h, ?_⟩
    have hs : (m.updCtx a fun x => { x with streak := 0 }).findSlot (·.isFree) = m.findSlot (·.isFree) := rfl
    dsimp only
    rw [hs]
    split
    · rename_i i hi; exact .inl ⟨i, hi, rfl⟩
    · rename_i hi; exact .inr ⟨hi, rfl⟩
  · rw [if_neg h]; exact .inl ⟨h, rfl⟩

/-- A guarded read (R23): one of the four cases. -/
theorem Monitor.guardedRead_cases (m : Monitor) (a : Agent) (c : Addr) (region lease holdLimit : Nat) :
    (∃ i, m.findSlot (·.entitles a) = some i ∧ m.cellHeld c = false ∧
        m.guardedRead a c region lease holdLimit = m.convert a c region holdLimit i)
      ∨ (¬((m.findSlot (·.entitles a)).isSome ∧ m.cellHeld c = false)
        ∧ ((∃ i, m.findSlot (·.holds a c) = some i ∧
              m.guardedRead a c region lease holdLimit = { monitor := m, records := [] })
          ∨ (∃ e, m.findSlot (·.holds a c) = none ∧ m.entry a c = some e ∧
              m.guardedRead a c region lease holdLimit = { monitor := m.refresh e lease, records := [] })
          ∨ (m.findSlot (·.holds a c) = none ∧ m.entry a c = none ∧
              m.guardedRead a c region lease holdLimit = m.create a c region lease))) := by
  unfold Monitor.guardedRead
  split
  · rename_i i h1 h2; exact .inl ⟨i, h1, h2, rfl⟩
  · rename_i hne
    refine .inr ⟨?_, ?_⟩
    · rintro ⟨hs, hc⟩
      obtain ⟨i, hi⟩ := Option.isSome_iff_exists.1 hs
      exact hne i hi hc
    · split
      · rename_i i h1; exact .inl ⟨i, h1, rfl⟩
      · rename_i e h1 h2; exact .inr (.inl ⟨e, h1, h2, rfl⟩)
      · rename_i h1 h2; exact .inr (.inr ⟨h1, h2, rfl⟩)

/-- Room for a new entry (R27, R28): a displacement, an eviction, or nothing. -/
theorem Monitor.makeRoom_cases (m : Monitor) (a : Agent) :
    (∃ e, Config.agentEntries ≤ m.entriesOf a ∧ m.table.find? (·.agent == a) = some e ∧
        m.makeRoom a =
          { monitor := (m.removeEntry e.agent e.cell).lose e.agent e.cell .displaced
            records := [.ofDisplace e.agent e.cell (.region e.region)] })
      ∨ (∃ e rest, m.entriesOf a < Config.agentEntries ∧ Config.tableSize ≤ m.table.length ∧ m.table = e :: rest ∧
        m.makeRoom a =
          { monitor := ({ m with table := rest } : Monitor).lose e.agent e.cell .evicted
            records := [.ofEvict e.agent e.cell (.region e.region) a]
            evicted := true })
      ∨ (m.entriesOf a < Config.agentEntries ∧ m.table.length < Config.tableSize ∧
        m.makeRoom a = { monitor := m, records := [] }) := by
  unfold Monitor.makeRoom
  split
  · rename_i h
    split
    · rename_i e he; exact .inl ⟨e, h, he, rfl⟩
    · rename_i he
      exfalso
      have h0 : m.entriesOf a = 0 := by
        unfold Monitor.entriesOf
        rw [List.countP_eq_zero]
        intro e hm hp
        exact (List.find?_eq_none.1 he) e hm hp
      simp [h0, Config.agentEntries] at h
  · rename_i h
    split
    · rename_i h2
      split
      · rename_i e rest he; exact .inr (.inl ⟨e, rest, by omega, h2, he, rfl⟩)
      · rename_i he; simp [he, Config.tableSize] at h2
    · rename_i h2; exact .inr (.inr ⟨by omega, by omega, rfl⟩)

/-- The judgement of a guarded write (R43): each case with its condition, in the order of the table. -/
theorem Monitor.judge_cases (m : Monitor) (a : Agent) (c : Addr) :
    (∃ i, m.findSlot (·.holdsForOther a c) = some i ∧ m.judge a c = .heldByOther)
      ∨ (m.findSlot (·.holdsForOther a c) = none
        ∧ ((∃ i, m.findSlot (·.holds a c) = some i ∧ m.judge a c = .byHold i)
          ∨ (m.findSlot (·.holds a c) = none
            ∧ ((∃ e, m.entry a c = some e ∧ m.judge a c = .byEntry)
              ∨ (m.entry a c = none
                ∧ ((∃ k, m.lossOf a c = some k ∧ m.judge a c = .lost k)
                  ∨ (m.lossOf a c = none ∧ m.judge a c = .noReservation))))))) := by
  unfold Monitor.judge
  split
  · rename_i i h; exact .inl ⟨i, h, rfl⟩
  · rename_i h
    refine .inr ⟨h, ?_⟩
    split
    · rename_i i h2; exact .inl ⟨i, h2, rfl⟩
    · rename_i h2
      refine .inr ⟨h2, ?_⟩
      split
      · rename_i e h3; exact .inl ⟨e, h3, rfl⟩
      · rename_i h3
        refine .inr ⟨h3, ?_⟩
        split
        · rename_i k h4; exact .inl ⟨k, h4, rfl⟩
        · rename_i h4; exact .inr ⟨h4, rfl⟩

/-- A guarded write (R43): a commit by the hold or by the entry, or a refusal with the cause of its case. -/
theorem Monitor.guardedWrite_cases (m : Monitor) (a : Agent) (c : Addr) (region : RegionIx) (threshold limit : Nat) :
    (m.judge a c = .heldByOther ∧
        m.guardedWrite a c region threshold limit =
          { step := m.refuse a c region .held threshold limit, refusal := some .held })
      ∨ (∃ i, m.judge a c = .byHold i ∧
        m.guardedWrite a c region threshold limit = { step := m.commitByHold a c region i limit, refusal := none })
      ∨ (m.judge a c = .byEntry ∧
        m.guardedWrite a c region threshold limit = { step := m.commitByEntry a c region, refusal := none })
      ∨ (∃ k, m.judge a c = .lost k ∧
        m.guardedWrite a c region threshold limit =
          { step := (m.forget a c).refuse a c region k threshold limit, refusal := some k })
      ∨ (m.judge a c = .noReservation ∧
        m.guardedWrite a c region threshold limit =
          { step := m.refuse a c region .noReservation threshold limit, refusal := some .noReservation }) := by
  unfold Monitor.guardedWrite
  split
  · rename_i h; exact .inl ⟨h, rfl⟩
  · rename_i i h; exact .inr (.inl ⟨i, h, rfl⟩)
  · rename_i h; exact .inr (.inr (.inl ⟨h, rfl⟩))
  · rename_i k h; exact .inr (.inr (.inr (.inl ⟨k, h, rfl⟩)))
  · rename_i h; exact .inr (.inr (.inr (.inr ⟨h, rfl⟩)))

/-- The lease expiry (R31): the entry leaves with a loss entry EXPIRED, or nothing happens. -/
theorem Monitor.leaseExpiry_cases (m : Monitor) (a : Agent) (c : Addr) :
    (∃ e, m.entry a c = some e ∧ e.lease = 0 ∧
        m.leaseExpiry a c =
          { monitor := (m.removeEntry a c).lose a c .expired, records := [.ofExpire a c (.region e.region)] })
      ∨ ((∀ e, m.entry a c = some e → e.lease ≠ 0) ∧ m.leaseExpiry a c = { monitor := m, records := [] }) := by
  unfold Monitor.leaseExpiry
  split
  · rename_i e h
    split
    · rename_i h0; exact .inl ⟨e, h, h0, rfl⟩
    · rename_i h0
      refine .inr ⟨?_, rfl⟩
      intro e2 h2; rw [h] at h2; cases h2; exact h0
  · rename_i h; refine .inr ⟨?_, rfl⟩; intro e he; rw [h] at he; cases he

/-- The expiries of slots (R75, R79): a release, or nothing. -/
theorem Monitor.entitlementExpiry_cases (m : Monitor) (i : SlotIx) (limit : Nat) :
    (∃ a, m.slots.get i = .entitled a 0 ∧ m.entitlementExpiry i limit = m.releaseSlot i a none .expired limit)
      ∨ ((∀ a, m.slots.get i ≠ .entitled a 0) ∧ m.entitlementExpiry i limit = { monitor := m, records := [] }) := by
  unfold Monitor.entitlementExpiry
  split <;> rename_i h
  · exact .inl ⟨_, h, rfl⟩
  all_goals exact .inr ⟨by simp [h], rfl⟩

@[inherit_doc Monitor.entitlementExpiry_cases]
theorem Monitor.holdExpiry_cases (m : Monitor) (i : SlotIx) (limit : Nat) :
    (∃ a c r, m.slots.get i = .holding a c r 0 ∧
        m.holdExpiry i limit = (m.lose a c .expired).releaseSlot i a (some (c, .region r)) .expired limit)
      ∨ ((∀ a c r, m.slots.get i ≠ .holding a c r 0) ∧ m.holdExpiry i limit = { monitor := m, records := [] }) := by
  unfold Monitor.holdExpiry
  split <;> rename_i h
  · exact .inl ⟨_, _, _, h, rfl⟩
  all_goals exact .inr ⟨by simp [h], rfl⟩

/-- Breaking entries touches the table and the loss lists alone. -/
theorem Monitor.foldl_breakEntry_frame (es : List TableEntry) (m : Monitor) :
    (es.foldl Monitor.breakEntry m).slots = m.slots ∧ (es.foldl Monitor.breakEntry m).waitList = m.waitList
      ∧ ∀ a, (es.foldl Monitor.breakEntry m).ctx a =
          { m.ctx a with loss := ((es.foldl Monitor.breakEntry m).ctx a).loss } := by
  induction es generalizing m with
  | nil => exact ⟨rfl, rfl, fun _ => rfl⟩
  | cons e es ih =>
    obtain ⟨h1, h2, h3⟩ := ih (m.breakEntry e)
    refine ⟨h1, h2, fun a => ?_⟩
    rw [List.foldl_cons, h3 a]
    have hc : (m.breakEntry e).ctx a = { m.ctx a with loss := ((m.breakEntry e).ctx a).loss } := by
      unfold Monitor.breakEntry
      rw [Monitor.ctx_lose]
      by_cases h : a = e.agent
      · subst h; simp
      · simp [h]
    rw [hc]

/-- The table after breaking entries: those broken are gone, the rest keep their order. -/
theorem Monitor.foldl_breakEntry_table (es : List TableEntry) (m : Monitor) :
    (es.foldl Monitor.breakEntry m).table = m.table.filter fun e => !es.any fun v => e.isOf v.agent v.cell := by
  induction es generalizing m with
  | nil => simp [List.filter_eq_self.2]
  | cons v es ih =>
    rw [List.foldl_cons, ih, Monitor.breakEntry, Monitor.lose_table, Monitor.removeEntry_table, List.filter_filter]
    congr 1; funext e
    simp [Bool.and_comm]

end Sys2Proof.Machine
end

