-- ==== Sys2Proof/Laws/State.lean ====
section
/-! SUPPORT. Laws/State.lean: for each named operation over the state, the components it leaves as they are and what it makes of the
others, one lemma each, so that no later proof unfolds an update. -/
namespace Sys2Proof.Machine

/-! `setFlag` changes the attention logic alone. -/

@[simp] theorem State.setFlag_ports (s : State) (f : CauseFlag) : (s.setFlag f).ports = s.ports := rfl
@[simp] theorem State.setFlag_pointer (s : State) (f : CauseFlag) : (s.setFlag f).pointer = s.pointer := rfl
@[simp] theorem State.setFlag_monitor (s : State) (f : CauseFlag) : (s.setFlag f).monitor = s.monitor := rfl
@[simp] theorem State.setFlag_tally (s : State) (f : CauseFlag) : (s.setFlag f).tally = s.tally := rfl
@[simp] theorem State.setFlag_memory (s : State) (f : CauseFlag) : (s.setFlag f).memory = s.memory := rfl
@[simp] theorem State.setFlag_loader (s : State) (f : CauseFlag) : (s.setFlag f).loader = s.loader := rfl
@[simp] theorem State.setFlag_capture (s : State) (f : CauseFlag) : (s.setFlag f).capture = s.capture := rfl
@[simp] theorem State.setFlag_link (s : State) (f : CauseFlag) : (s.setFlag f).link = s.link := rfl
@[simp] theorem State.setFlag_pending (s : State) (f : CauseFlag) : (s.setFlag f).pending = s.pending := rfl

@[simp] theorem State.setFlag_attention (s : State) (f : CauseFlag) : (s.setFlag f).attention = s.attention.raise f := rfl

/-! `updPort` changes one front end. -/

@[simp] theorem State.updPort_pointer (s : State) (p : PortIx) (g : Port → Port) : (s.updPort p g).pointer = s.pointer := rfl
@[simp] theorem State.updPort_monitor (s : State) (p : PortIx) (g : Port → Port) : (s.updPort p g).monitor = s.monitor := rfl
@[simp] theorem State.updPort_tally (s : State) (p : PortIx) (g : Port → Port) : (s.updPort p g).tally = s.tally := rfl
@[simp] theorem State.updPort_memory (s : State) (p : PortIx) (g : Port → Port) : (s.updPort p g).memory = s.memory := rfl
@[simp] theorem State.updPort_loader (s : State) (p : PortIx) (g : Port → Port) : (s.updPort p g).loader = s.loader := rfl
@[simp] theorem State.updPort_capture (s : State) (p : PortIx) (g : Port → Port) : (s.updPort p g).capture = s.capture := rfl
@[simp] theorem State.updPort_link (s : State) (p : PortIx) (g : Port → Port) : (s.updPort p g).link = s.link := rfl
@[simp] theorem State.updPort_attention (s : State) (p : PortIx) (g : Port → Port) : (s.updPort p g).attention = s.attention := rfl
@[simp] theorem State.updPort_pending (s : State) (p : PortIx) (g : Port → Port) : (s.updPort p g).pending = s.pending := rfl

theorem State.updPort_ports (s : State) (p : PortIx) (g : Port → Port) :
    (s.updPort p g).ports = s.ports.set p (g (s.ports.get p)) := rfl

@[simp] theorem State.updPort_get_self (s : State) (p : PortIx) (g : Port → Port) :
    (s.updPort p g).ports.get p = g (s.ports.get p) := by simp [State.updPort_ports]

theorem State.updPort_get_ne (s : State) {p q : PortIx} (g : Port → Port) (h : q ≠ p) :
    (s.updPort p g).ports.get q = s.ports.get q := by simp [State.updPort_ports, Four.get_set_ne _ _ h]

/-! `respond` changes one front end. -/

@[simp] theorem State.respond_pointer (s : State) (p : PortIx) (id : Nat) (k : Cause) (d : List Byte) :
    (s.respond p id k d).pointer = s.pointer := rfl
@[simp] theorem State.respond_monitor (s : State) (p : PortIx) (id : Nat) (k : Cause) (d : List Byte) :
    (s.respond p id k d).monitor = s.monitor := rfl
@[simp] theorem State.respond_tally (s : State) (p : PortIx) (id : Nat) (k : Cause) (d : List Byte) :
    (s.respond p id k d).tally = s.tally := rfl
@[simp] theorem State.respond_memory (s : State) (p : PortIx) (id : Nat) (k : Cause) (d : List Byte) :
    (s.respond p id k d).memory = s.memory := rfl
@[simp] theorem State.respond_loader (s : State) (p : PortIx) (id : Nat) (k : Cause) (d : List Byte) :
    (s.respond p id k d).loader = s.loader := rfl
@[simp] theorem State.respond_capture (s : State) (p : PortIx) (id : Nat) (k : Cause) (d : List Byte) :
    (s.respond p id k d).capture = s.capture := rfl
@[simp] theorem State.respond_link (s : State) (p : PortIx) (id : Nat) (k : Cause) (d : List Byte) :
    (s.respond p id k d).link = s.link := rfl
@[simp] theorem State.respond_attention (s : State) (p : PortIx) (id : Nat) (k : Cause) (d : List Byte) :
    (s.respond p id k d).attention = s.attention := rfl
@[simp] theorem State.respond_pending (s : State) (p : PortIx) (id : Nat) (k : Cause) (d : List Byte) :
    (s.respond p id k d).pending = s.pending := rfl

@[simp] theorem State.respond_get_self (s : State) (p : PortIx) (id : Nat) (k : Cause) (d : List Byte) :
    (s.respond p id k d).ports.get p = (s.ports.get p).complete id { cause := k, data := d } := by
  simp [State.respond]

theorem State.respond_get_ne (s : State) {p q : PortIx} (id : Nat) (k : Cause) (d : List Byte) (h : q ≠ p) :
    (s.respond p id k d).ports.get q = s.ports.get q := State.updPort_get_ne s _ h

/-! `setVerdict` changes one agent context. -/

@[simp] theorem State.setVerdict_ports (s : State) (a : Agent) (k : Cause) : (s.setVerdict a k).ports = s.ports := rfl
@[simp] theorem State.setVerdict_pointer (s : State) (a : Agent) (k : Cause) : (s.setVerdict a k).pointer = s.pointer := rfl
@[simp] theorem State.setVerdict_tally (s : State) (a : Agent) (k : Cause) : (s.setVerdict a k).tally = s.tally := rfl
@[simp] theorem State.setVerdict_memory (s : State) (a : Agent) (k : Cause) : (s.setVerdict a k).memory = s.memory := rfl
@[simp] theorem State.setVerdict_loader (s : State) (a : Agent) (k : Cause) : (s.setVerdict a k).loader = s.loader := rfl
@[simp] theorem State.setVerdict_capture (s : State) (a : Agent) (k : Cause) : (s.setVerdict a k).capture = s.capture := rfl
@[simp] theorem State.setVerdict_link (s : State) (a : Agent) (k : Cause) : (s.setVerdict a k).link = s.link := rfl
@[simp] theorem State.setVerdict_attention (s : State) (a : Agent) (k : Cause) : (s.setVerdict a k).attention = s.attention := rfl
@[simp] theorem State.setVerdict_pending (s : State) (a : Agent) (k : Cause) : (s.setVerdict a k).pending = s.pending := rfl

@[simp] theorem State.setVerdict_monitor (s : State) (a : Agent) (k : Cause) : (s.setVerdict a k).monitor = s.monitor.setVerdict a k := rfl

/-! `issue` changes the memory port alone. -/

@[simp] theorem State.issue_ports (s : State) (d : Dir) (x : Addr) (l : Length) (b : List Byte) (o : Origin) :
    (s.issue d x l b o).ports = s.ports := rfl
@[simp] theorem State.issue_pointer (s : State) (d : Dir) (x : Addr) (l : Length) (b : List Byte) (o : Origin) :
    (s.issue d x l b o).pointer = s.pointer := rfl
@[simp] theorem State.issue_monitor (s : State) (d : Dir) (x : Addr) (l : Length) (b : List Byte) (o : Origin) :
    (s.issue d x l b o).monitor = s.monitor := rfl
@[simp] theorem State.issue_tally (s : State) (d : Dir) (x : Addr) (l : Length) (b : List Byte) (o : Origin) :
    (s.issue d x l b o).tally = s.tally := rfl
@[simp] theorem State.issue_loader (s : State) (d : Dir) (x : Addr) (l : Length) (b : List Byte) (o : Origin) :
    (s.issue d x l b o).loader = s.loader := rfl
@[simp] theorem State.issue_capture (s : State) (d : Dir) (x : Addr) (l : Length) (b : List Byte) (o : Origin) :
    (s.issue d x l b o).capture = s.capture := rfl
@[simp] theorem State.issue_link (s : State) (d : Dir) (x : Addr) (l : Length) (b : List Byte) (o : Origin) :
    (s.issue d x l b o).link = s.link := rfl
@[simp] theorem State.issue_attention (s : State) (d : Dir) (x : Addr) (l : Length) (b : List Byte) (o : Origin) :
    (s.issue d x l b o).attention = s.attention := rfl
@[simp] theorem State.issue_pending (s : State) (d : Dir) (x : Addr) (l : Length) (b : List Byte) (o : Origin) :
    (s.issue d x l b o).pending = s.pending := rfl

@[simp] theorem State.issue_memory (s : State) (d : Dir) (x : Addr) (l : Length) (b : List Byte) (o : Origin) :
    (s.issue d x l b o).memory = s.memory.issue s.loader.memoryTimeout d x l b o := rfl

/-! `retire` changes the memory port alone. -/

@[simp] theorem State.retire_ports (s : State) : (s.retire).ports = s.ports := rfl
@[simp] theorem State.retire_pointer (s : State) : (s.retire).pointer = s.pointer := rfl
@[simp] theorem State.retire_monitor (s : State) : (s.retire).monitor = s.monitor := rfl
@[simp] theorem State.retire_tally (s : State) : (s.retire).tally = s.tally := rfl
@[simp] theorem State.retire_loader (s : State) : (s.retire).loader = s.loader := rfl
@[simp] theorem State.retire_capture (s : State) : (s.retire).capture = s.capture := rfl
@[simp] theorem State.retire_link (s : State) : (s.retire).link = s.link := rfl
@[simp] theorem State.retire_attention (s : State) : (s.retire).attention = s.attention := rfl
@[simp] theorem State.retire_pending (s : State) : (s.retire).pending = s.pending := rfl

@[simp] theorem State.retire_memory (s : State) : s.retire.memory = s.memory.retire s.loader.memoryTimeout := rfl

/-! `run` changes the part state and ends the read of the block. -/

@[simp] theorem State.run_ports (s : State) : (s.run).ports = s.ports := rfl
@[simp] theorem State.run_pointer (s : State) : (s.run).pointer = s.pointer := rfl
@[simp] theorem State.run_monitor (s : State) : (s.run).monitor = s.monitor := rfl
@[simp] theorem State.run_tally (s : State) : (s.run).tally = s.tally := rfl
@[simp] theorem State.run_memory (s : State) : (s.run).memory = s.memory := rfl
@[simp] theorem State.run_capture (s : State) : (s.run).capture = s.capture := rfl
@[simp] theorem State.run_link (s : State) : (s.run).link = s.link := rfl
@[simp] theorem State.run_attention (s : State) : (s.run).attention = s.attention := rfl
@[simp] theorem State.run_pending (s : State) : (s.run).pending = s.pending := rfl

@[simp] theorem State.run_loader (s : State) : s.run.loader = { s.loader with part := .running, reading := none } := rfl

/-! `endFrame` ends the frame and drops its marks. -/

@[simp] theorem State.endFrame_ports (s : State) : (s.endFrame).ports = s.ports := rfl
@[simp] theorem State.endFrame_pointer (s : State) : (s.endFrame).pointer = s.pointer := rfl
@[simp] theorem State.endFrame_monitor (s : State) : (s.endFrame).monitor = s.monitor := rfl
@[simp] theorem State.endFrame_tally (s : State) : (s.endFrame).tally = s.tally := rfl
@[simp] theorem State.endFrame_memory (s : State) : (s.endFrame).memory = s.memory := rfl
@[simp] theorem State.endFrame_loader (s : State) : (s.endFrame).loader = s.loader := rfl
@[simp] theorem State.endFrame_capture (s : State) : (s.endFrame).capture = s.capture := rfl
@[simp] theorem State.endFrame_pending (s : State) : (s.endFrame).pending = s.pending := rfl

@[simp] theorem State.endFrame_link (s : State) : s.endFrame.link = { s.link with frame := .between } := rfl
@[simp] theorem State.endFrame_attention (s : State) : s.endFrame.attention = s.attention.dropMarks := rfl

/-! `reply` changes the frame alone. -/

@[simp] theorem State.reply_ports (s : State) (st : LinkStatus) (d : List Byte) (c : Completion) : (s.reply st d c).ports = s.ports := rfl
@[simp] theorem State.reply_pointer (s : State) (st : LinkStatus) (d : List Byte) (c : Completion) :
    (s.reply st d c).pointer = s.pointer := rfl
@[simp] theorem State.reply_monitor (s : State) (st : LinkStatus) (d : List Byte) (c : Completion) :
    (s.reply st d c).monitor = s.monitor := rfl
@[simp] theorem State.reply_tally (s : State) (st : LinkStatus) (d : List Byte) (c : Completion) : (s.reply st d c).tally = s.tally := rfl
@[simp] theorem State.reply_memory (s : State) (st : LinkStatus) (d : List Byte) (c : Completion) :
    (s.reply st d c).memory = s.memory := rfl
@[simp] theorem State.reply_loader (s : State) (st : LinkStatus) (d : List Byte) (c : Completion) :
    (s.reply st d c).loader = s.loader := rfl
@[simp] theorem State.reply_capture (s : State) (st : LinkStatus) (d : List Byte) (c : Completion) :
    (s.reply st d c).capture = s.capture := rfl
@[simp] theorem State.reply_attention (s : State) (st : LinkStatus) (d : List Byte) (c : Completion) :
    (s.reply st d c).attention = s.attention := rfl
@[simp] theorem State.reply_pending (s : State) (st : LinkStatus) (d : List Byte) (c : Completion) :
    (s.reply st d c).pending = s.pending := rfl

@[simp] theorem State.reply_link (s : State) (st : LinkStatus) (d : List Byte) (c : Completion) :
    (s.reply st d c).link = { s.link with frame := .replied st d c } := rfl

/-! `ack` changes the frame alone. -/

@[simp] theorem State.ack_ports (s : State) : (s.ack).ports = s.ports := rfl
@[simp] theorem State.ack_pointer (s : State) : (s.ack).pointer = s.pointer := rfl
@[simp] theorem State.ack_monitor (s : State) : (s.ack).monitor = s.monitor := rfl
@[simp] theorem State.ack_tally (s : State) : (s.ack).tally = s.tally := rfl
@[simp] theorem State.ack_memory (s : State) : (s.ack).memory = s.memory := rfl
@[simp] theorem State.ack_loader (s : State) : (s.ack).loader = s.loader := rfl
@[simp] theorem State.ack_capture (s : State) : (s.ack).capture = s.capture := rfl
@[simp] theorem State.ack_attention (s : State) : (s.ack).attention = s.attention := rfl
@[simp] theorem State.ack_pending (s : State) : (s.ack).pending = s.pending := rfl

@[simp] theorem State.ack_link (s : State) : s.ack.link = { s.link with frame := .replied .ack [] .nothing } := rfl

/-! `offer` changes the capture unit, and of the attention logic at most FROZEN. -/

@[simp] theorem State.offer_ports (s : State) (r : Record) : (s.offer r).ports = s.ports := by
  unfold State.offer; split <;> rfl
@[simp] theorem State.offer_pointer (s : State) (r : Record) : (s.offer r).pointer = s.pointer := by
  unfold State.offer; split <;> rfl
@[simp] theorem State.offer_monitor (s : State) (r : Record) : (s.offer r).monitor = s.monitor := by
  unfold State.offer; split <;> rfl
@[simp] theorem State.offer_tally (s : State) (r : Record) : (s.offer r).tally = s.tally := by
  unfold State.offer; split <;> rfl
@[simp] theorem State.offer_memory (s : State) (r : Record) : (s.offer r).memory = s.memory := by
  unfold State.offer; split <;> rfl
@[simp] theorem State.offer_loader (s : State) (r : Record) : (s.offer r).loader = s.loader := by
  unfold State.offer; split <;> rfl
@[simp] theorem State.offer_link (s : State) (r : Record) : (s.offer r).link = s.link := by
  unfold State.offer; split <;> rfl
@[simp] theorem State.offer_pending (s : State) (r : Record) : (s.offer r).pending = s.pending := by
  unfold State.offer; split <;> rfl

@[simp] theorem State.offer_capture (s : State) (r : Record) : (s.offer r).capture = s.capture.take r := by
  unfold State.offer; split <;> rfl

theorem State.offer_attention (s : State) (r : Record) :
    (s.offer r).attention = if s.capture.freezesOn r then s.attention.raise .frozen else s.attention := by
  unfold State.offer; split <;> rfl

@[simp] theorem State.offer_mask (s : State) (r : Record) : (s.offer r).attention.mask = s.attention.mask := by
  rw [State.offer_attention]; split <;> rfl

/-! `offerControl` is an offer. -/

@[simp] theorem State.offerControl_ports (s : State) (k : ControlCode) : (s.offerControl k).ports = s.ports := State.offer_ports s _
@[simp] theorem State.offerControl_pointer (s : State) (k : ControlCode) : (s.offerControl k).pointer = s.pointer := State.offer_pointer s _
@[simp] theorem State.offerControl_monitor (s : State) (k : ControlCode) : (s.offerControl k).monitor = s.monitor := State.offer_monitor s _
@[simp] theorem State.offerControl_tally (s : State) (k : ControlCode) : (s.offerControl k).tally = s.tally := State.offer_tally s _
@[simp] theorem State.offerControl_memory (s : State) (k : ControlCode) : (s.offerControl k).memory = s.memory := State.offer_memory s _
@[simp] theorem State.offerControl_loader (s : State) (k : ControlCode) : (s.offerControl k).loader = s.loader := State.offer_loader s _
@[simp] theorem State.offerControl_link (s : State) (k : ControlCode) : (s.offerControl k).link = s.link := State.offer_link s _
@[simp] theorem State.offerControl_pending (s : State) (k : ControlCode) : (s.offerControl k).pending = s.pending := State.offer_pending s _

@[simp] theorem State.offerControl_capture (s : State) (k : ControlCode) :
    (s.offerControl k).capture = s.capture.take (.ofControl none k) := State.offer_capture s _
@[simp] theorem State.offerControl_mask (s : State) (k : ControlCode) :
    (s.offerControl k).attention.mask = s.attention.mask := State.offer_mask s _

/-! `offerAll` is a run of offers. -/

@[simp] theorem State.offerAll_ports (s : State) (rs : List Record) : (s.offerAll rs).ports = s.ports := by
  induction rs generalizing s with
  | nil => rfl
  | cons r rs ih => exact (ih (s.offer r)).trans (State.offer_ports s r)
@[simp] theorem State.offerAll_pointer (s : State) (rs : List Record) : (s.offerAll rs).pointer = s.pointer := by
  induction rs generalizing s with
  | nil => rfl
  | cons r rs ih => exact (ih (s.offer r)).trans (State.offer_pointer s r)
@[simp] theorem State.offerAll_monitor (s : State) (rs : List Record) : (s.offerAll rs).monitor = s.monitor := by
  induction rs generalizing s with
  | nil => rfl
  | cons r rs ih => exact (ih (s.offer r)).trans (State.offer_monitor s r)
@[simp] theorem State.offerAll_tally (s : State) (rs : List Record) : (s.offerAll rs).tally = s.tally := by
  induction rs generalizing s with
  | nil => rfl
  | cons r rs ih => exact (ih (s.offer r)).trans (State.offer_tally s r)
@[simp] theorem State.offerAll_memory (s : State) (rs : List Record) : (s.offerAll rs).memory = s.memory := by
  induction rs generalizing s with
  | nil => rfl
  | cons r rs ih => exact (ih (s.offer r)).trans (State.offer_memory s r)
@[simp] theorem State.offerAll_loader (s : State) (rs : List Record) : (s.offerAll rs).loader = s.loader := by
  induction rs generalizing s with
  | nil => rfl
  | cons r rs ih => exact (ih (s.offer r)).trans (State.offer_loader s r)
@[simp] theorem State.offerAll_link (s : State) (rs : List Record) : (s.offerAll rs).link = s.link := by
  induction rs generalizing s with
  | nil => rfl
  | cons r rs ih => exact (ih (s.offer r)).trans (State.offer_link s r)
@[simp] theorem State.offerAll_pending (s : State) (rs : List Record) : (s.offerAll rs).pending = s.pending := by
  induction rs generalizing s with
  | nil => rfl
  | cons r rs ih => exact (ih (s.offer r)).trans (State.offer_pending s r)

@[simp] theorem State.offerAll_capture (s : State) (rs : List Record) :
    (s.offerAll rs).capture = rs.foldl Capture.take s.capture := by
  induction rs generalizing s with
  | nil => rfl
  | cons r rs ih =>
    rw [List.foldl_cons, ← State.offer_capture s r]
    exact ih (s.offer r)

@[simp] theorem State.offerAll_mask (s : State) (rs : List Record) :
    (s.offerAll rs).attention.mask = s.attention.mask := by
  induction rs generalizing s with
  | nil => rfl
  | cons r rs ih => exact (ih (s.offer r)).trans (State.offer_mask s r)

/-! `takeMonitor` changes the monitor, the capture unit, and of the attention logic at most FROZEN and EVICTION. -/

@[simp] theorem State.takeMonitor_ports (s : State) (m : MonitorStep) : (s.takeMonitor m).ports = s.ports := by
  unfold State.takeMonitor; dsimp only; split <;> simp
@[simp] theorem State.takeMonitor_pointer (s : State) (m : MonitorStep) : (s.takeMonitor m).pointer = s.pointer := by
  unfold State.takeMonitor; dsimp only; split <;> simp
@[simp] theorem State.takeMonitor_tally (s : State) (m : MonitorStep) : (s.takeMonitor m).tally = s.tally := by
  unfold State.takeMonitor; dsimp only; split <;> simp
@[simp] theorem State.takeMonitor_memory (s : State) (m : MonitorStep) : (s.takeMonitor m).memory = s.memory := by
  unfold State.takeMonitor; dsimp only; split <;> simp
@[simp] theorem State.takeMonitor_loader (s : State) (m : MonitorStep) : (s.takeMonitor m).loader = s.loader := by
  unfold State.takeMonitor; dsimp only; split <;> simp
@[simp] theorem State.takeMonitor_link (s : State) (m : MonitorStep) : (s.takeMonitor m).link = s.link := by
  unfold State.takeMonitor; dsimp only; split <;> simp
@[simp] theorem State.takeMonitor_pending (s : State) (m : MonitorStep) : (s.takeMonitor m).pending = s.pending := by
  unfold State.takeMonitor; dsimp only; split <;> simp

@[simp] theorem State.takeMonitor_monitor (s : State) (m : MonitorStep) : (s.takeMonitor m).monitor = m.monitor := by
  unfold State.takeMonitor; dsimp only; split <;> simp

@[simp] theorem State.takeMonitor_capture (s : State) (m : MonitorStep) :
    (s.takeMonitor m).capture = m.records.foldl Capture.take s.capture := by
  unfold State.takeMonitor; dsimp only; split <;> simp

@[simp] theorem State.takeMonitor_mask (s : State) (m : MonitorStep) :
    (s.takeMonitor m).attention.mask = s.attention.mask := by
  unfold State.takeMonitor; dsimp only; split <;> simp [Attention.raise]

/-! `issueWriteHalf` changes the tally engine and the memory port. -/

@[simp] theorem State.issueWriteHalf_ports (s : State) : (s.issueWriteHalf).ports = s.ports := by
  unfold State.issueWriteHalf; split
  · rfl
  · split <;> rfl
@[simp] theorem State.issueWriteHalf_pointer (s : State) : (s.issueWriteHalf).pointer = s.pointer := by
  unfold State.issueWriteHalf; split
  · rfl
  · split <;> rfl
@[simp] theorem State.issueWriteHalf_monitor (s : State) : (s.issueWriteHalf).monitor = s.monitor := by
  unfold State.issueWriteHalf; split
  · rfl
  · split <;> rfl
@[simp] theorem State.issueWriteHalf_loader (s : State) : (s.issueWriteHalf).loader = s.loader := by
  unfold State.issueWriteHalf; split
  · rfl
  · split <;> rfl
@[simp] theorem State.issueWriteHalf_capture (s : State) : (s.issueWriteHalf).capture = s.capture := by
  unfold State.issueWriteHalf; split
  · rfl
  · split <;> rfl
@[simp] theorem State.issueWriteHalf_link (s : State) : (s.issueWriteHalf).link = s.link := by
  unfold State.issueWriteHalf; split
  · rfl
  · split <;> rfl
@[simp] theorem State.issueWriteHalf_attention (s : State) : (s.issueWriteHalf).attention = s.attention := by
  unfold State.issueWriteHalf; split
  · rfl
  · split <;> rfl
@[simp] theorem State.issueWriteHalf_pending (s : State) : (s.issueWriteHalf).pending = s.pending := by
  unfold State.issueWriteHalf; split
  · rfl
  · split <;> rfl

/-! `issueWriteHalves` changes the tally engine and the memory port. -/

@[simp] theorem State.issueWriteHalves_ports (s : State) : (s.issueWriteHalves).ports = s.ports := by
  unfold State.issueWriteHalves
  generalize s.tally.waiting = w
  induction w generalizing s with
  | nil => rfl
  | cons i rest ih => exact (ih s.issueWriteHalf).trans (State.issueWriteHalf_ports s)
@[simp] theorem State.issueWriteHalves_pointer (s : State) : (s.issueWriteHalves).pointer = s.pointer := by
  unfold State.issueWriteHalves
  generalize s.tally.waiting = w
  induction w generalizing s with
  | nil => rfl
  | cons i rest ih => exact (ih s.issueWriteHalf).trans (State.issueWriteHalf_pointer s)
@[simp] theorem State.issueWriteHalves_monitor (s : State) : (s.issueWriteHalves).monitor = s.monitor := by
  unfold State.issueWriteHalves
  generalize s.tally.waiting = w
  induction w generalizing s with
  | nil => rfl
  | cons i rest ih => exact (ih s.issueWriteHalf).trans (State.issueWriteHalf_monitor s)
@[simp] theorem State.issueWriteHalves_loader (s : State) : (s.issueWriteHalves).loader = s.loader := by
  unfold State.issueWriteHalves
  generalize s.tally.waiting = w
  induction w generalizing s with
  | nil => rfl
  | cons i rest ih => exact (ih s.issueWriteHalf).trans (State.issueWriteHalf_loader s)
@[simp] theorem State.issueWriteHalves_capture (s : State) : (s.issueWriteHalves).capture = s.capture := by
  unfold State.issueWriteHalves
  generalize s.tally.waiting = w
  induction w generalizing s with
  | nil => rfl
  | cons i rest ih => exact (ih s.issueWriteHalf).trans (State.issueWriteHalf_capture s)
@[simp] theorem State.issueWriteHalves_link (s : State) : (s.issueWriteHalves).link = s.link := by
  unfold State.issueWriteHalves
  generalize s.tally.waiting = w
  induction w generalizing s with
  | nil => rfl
  | cons i rest ih => exact (ih s.issueWriteHalf).trans (State.issueWriteHalf_link s)
@[simp] theorem State.issueWriteHalves_attention (s : State) : (s.issueWriteHalves).attention = s.attention := by
  unfold State.issueWriteHalves
  generalize s.tally.waiting = w
  induction w generalizing s with
  | nil => rfl
  | cons i rest ih => exact (ih s.issueWriteHalf).trans (State.issueWriteHalf_attention s)
@[simp] theorem State.issueWriteHalves_pending (s : State) : (s.issueWriteHalves).pending = s.pending := by
  unfold State.issueWriteHalves
  generalize s.tally.waiting = w
  induction w generalizing s with
  | nil => rfl
  | cons i rest ih => exact (ih s.issueWriteHalf).trans (State.issueWriteHalf_pending s)

/-! `completeRequest` changes one front end and at most one verdict. -/

@[simp] theorem State.completeRequest_pointer (s : State) (o : Owner) (id : Nat) (d : Dir) (k : Cause) (b : List Byte) :
    (s.completeRequest o id d k b).pointer = s.pointer := by
  unfold State.completeRequest; dsimp only; split <;> rfl
@[simp] theorem State.completeRequest_tally (s : State) (o : Owner) (id : Nat) (d : Dir) (k : Cause) (b : List Byte) :
    (s.completeRequest o id d k b).tally = s.tally := by
  unfold State.completeRequest; dsimp only; split <;> rfl
@[simp] theorem State.completeRequest_memory (s : State) (o : Owner) (id : Nat) (d : Dir) (k : Cause) (b : List Byte) :
    (s.completeRequest o id d k b).memory = s.memory := by
  unfold State.completeRequest; dsimp only; split <;> rfl
@[simp] theorem State.completeRequest_loader (s : State) (o : Owner) (id : Nat) (d : Dir) (k : Cause) (b : List Byte) :
    (s.completeRequest o id d k b).loader = s.loader := by
  unfold State.completeRequest; dsimp only; split <;> rfl
@[simp] theorem State.completeRequest_capture (s : State) (o : Owner) (id : Nat) (d : Dir) (k : Cause) (b : List Byte) :
    (s.completeRequest o id d k b).capture = s.capture := by
  unfold State.completeRequest; dsimp only; split <;> rfl
@[simp] theorem State.completeRequest_link (s : State) (o : Owner) (id : Nat) (d : Dir) (k : Cause) (b : List Byte) :
    (s.completeRequest o id d k b).link = s.link := by
  unfold State.completeRequest; dsimp only; split <;> rfl
@[simp] theorem State.completeRequest_attention (s : State) (o : Owner) (id : Nat) (d : Dir) (k : Cause) (b : List Byte) :
    (s.completeRequest o id d k b).attention = s.attention := by
  unfold State.completeRequest; dsimp only; split <;> rfl
@[simp] theorem State.completeRequest_pending (s : State) (o : Owner) (id : Nat) (d : Dir) (k : Cause) (b : List Byte) :
    (s.completeRequest o id d k b).pending = s.pending := by
  unfold State.completeRequest; dsimp only; split <;> rfl

/-! `readFailureCleanup` changes the monitor's table at most. -/

@[simp] theorem State.readFailureCleanup_ports (s : State) (o : Owner) : (s.readFailureCleanup o).ports = s.ports := by
  unfold State.readFailureCleanup; split <;> rfl
@[simp] theorem State.readFailureCleanup_pointer (s : State) (o : Owner) : (s.readFailureCleanup o).pointer = s.pointer := by
  unfold State.readFailureCleanup; split <;> rfl
@[simp] theorem State.readFailureCleanup_tally (s : State) (o : Owner) : (s.readFailureCleanup o).tally = s.tally := by
  unfold State.readFailureCleanup; split <;> rfl
@[simp] theorem State.readFailureCleanup_memory (s : State) (o : Owner) : (s.readFailureCleanup o).memory = s.memory := by
  unfold State.readFailureCleanup; split <;> rfl
@[simp] theorem State.readFailureCleanup_loader (s : State) (o : Owner) : (s.readFailureCleanup o).loader = s.loader := by
  unfold State.readFailureCleanup; split <;> rfl
@[simp] theorem State.readFailureCleanup_capture (s : State) (o : Owner) : (s.readFailureCleanup o).capture = s.capture := by
  unfold State.readFailureCleanup; split <;> rfl
@[simp] theorem State.readFailureCleanup_link (s : State) (o : Owner) : (s.readFailureCleanup o).link = s.link := by
  unfold State.readFailureCleanup; split <;> rfl
@[simp] theorem State.readFailureCleanup_attention (s : State) (o : Owner) : (s.readFailureCleanup o).attention = s.attention := by
  unfold State.readFailureCleanup; split <;> rfl
@[simp] theorem State.readFailureCleanup_pending (s : State) (o : Owner) : (s.readFailureCleanup o).pending = s.pending := by
  unfold State.readFailureCleanup; split <;> rfl

/-! `endTally` changes a front end, a verdict, the capture unit and a tally slot. -/

@[simp] theorem State.endTally_pointer (s : State) (i : SlotIx) (t : Tally) (k : Cause) (r : Record) :
    (s.endTally i t k r).pointer = s.pointer := by
  unfold State.endTally; dsimp only; split <;> simp
@[simp] theorem State.endTally_memory (s : State) (i : SlotIx) (t : Tally) (k : Cause) (r : Record) :
    (s.endTally i t k r).memory = s.memory := by
  unfold State.endTally; dsimp only; split <;> simp
@[simp] theorem State.endTally_loader (s : State) (i : SlotIx) (t : Tally) (k : Cause) (r : Record) :
    (s.endTally i t k r).loader = s.loader := by
  unfold State.endTally; dsimp only; split <;> simp
@[simp] theorem State.endTally_link (s : State) (i : SlotIx) (t : Tally) (k : Cause) (r : Record) : (s.endTally i t k r).link = s.link := by
  unfold State.endTally; dsimp only; split <;> simp
@[simp] theorem State.endTally_pending (s : State) (i : SlotIx) (t : Tally) (k : Cause) (r : Record) :
    (s.endTally i t k r).pending = s.pending := by
  unfold State.endTally; dsimp only; split <;> simp

/-! `failTally` is the end of a tally. -/

@[simp] theorem State.failTally_pointer (s : State) (i : SlotIx) (k : Cause) : (s.failTally i k).pointer = s.pointer := by
  unfold State.failTally; split <;> simp
@[simp] theorem State.failTally_memory (s : State) (i : SlotIx) (k : Cause) : (s.failTally i k).memory = s.memory := by
  unfold State.failTally; split <;> simp
@[simp] theorem State.failTally_loader (s : State) (i : SlotIx) (k : Cause) : (s.failTally i k).loader = s.loader := by
  unfold State.failTally; split <;> simp
@[simp] theorem State.failTally_link (s : State) (i : SlotIx) (k : Cause) : (s.failTally i k).link = s.link := by
  unfold State.failTally; split <;> simp
@[simp] theorem State.failTally_pending (s : State) (i : SlotIx) (k : Cause) : (s.failTally i k).pending = s.pending := by
  unfold State.failTally; split <;> simp

/-! `finishTally` is the end of a tally. -/

@[simp] theorem State.finishTally_pointer (s : State) (i : SlotIx) : (s.finishTally i).pointer = s.pointer := by
  unfold State.finishTally; split <;> simp
@[simp] theorem State.finishTally_memory (s : State) (i : SlotIx) : (s.finishTally i).memory = s.memory := by
  unfold State.finishTally; split <;> simp
@[simp] theorem State.finishTally_loader (s : State) (i : SlotIx) : (s.finishTally i).loader = s.loader := by
  unfold State.finishTally; split <;> simp
@[simp] theorem State.finishTally_link (s : State) (i : SlotIx) : (s.finishTally i).link = s.link := by
  unfold State.finishTally; split <;> simp
@[simp] theorem State.finishTally_pending (s : State) (i : SlotIx) : (s.finishTally i).pending = s.pending := by
  unfold State.finishTally; split <;> simp

/-! `readHalfDone` changes the tally engine, and of the attention logic at most SATURATED. -/

@[simp] theorem State.readHalfDone_ports (s : State) (i : SlotIx) (d : BitVec 512) : (s.readHalfDone i d).ports = s.ports := by
  unfold State.readHalfDone; split
  · dsimp only; split <;> rfl
  · rfl
@[simp] theorem State.readHalfDone_pointer (s : State) (i : SlotIx) (d : BitVec 512) : (s.readHalfDone i d).pointer = s.pointer := by
  unfold State.readHalfDone; split
  · dsimp only; split <;> rfl
  · rfl
@[simp] theorem State.readHalfDone_monitor (s : State) (i : SlotIx) (d : BitVec 512) : (s.readHalfDone i d).monitor = s.monitor := by
  unfold State.readHalfDone; split
  · dsimp only; split <;> rfl
  · rfl
@[simp] theorem State.readHalfDone_memory (s : State) (i : SlotIx) (d : BitVec 512) : (s.readHalfDone i d).memory = s.memory := by
  unfold State.readHalfDone; split
  · dsimp only; split <;> rfl
  · rfl
@[simp] theorem State.readHalfDone_loader (s : State) (i : SlotIx) (d : BitVec 512) : (s.readHalfDone i d).loader = s.loader := by
  unfold State.readHalfDone; split
  · dsimp only; split <;> rfl
  · rfl
@[simp] theorem State.readHalfDone_capture (s : State) (i : SlotIx) (d : BitVec 512) : (s.readHalfDone i d).capture = s.capture := by
  unfold State.readHalfDone; split
  · dsimp only; split <;> rfl
  · rfl
@[simp] theorem State.readHalfDone_link (s : State) (i : SlotIx) (d : BitVec 512) : (s.readHalfDone i d).link = s.link := by
  unfold State.readHalfDone; split
  · dsimp only; split <;> rfl
  · rfl
@[simp] theorem State.readHalfDone_pending (s : State) (i : SlotIx) (d : BitVec 512) : (s.readHalfDone i d).pending = s.pending := by
  unfold State.readHalfDone; split
  · dsimp only; split <;> rfl
  · rfl

/-! `reloadTrigger` changes the loader alone. -/

@[simp] theorem State.reloadTrigger_ports (s : State) : (s.reloadTrigger).ports = s.ports := by
  unfold State.reloadTrigger; split
  · split <;> rfl
  all_goals rfl
@[simp] theorem State.reloadTrigger_pointer (s : State) : (s.reloadTrigger).pointer = s.pointer := by
  unfold State.reloadTrigger; split
  · split <;> rfl
  all_goals rfl
@[simp] theorem State.reloadTrigger_monitor (s : State) : (s.reloadTrigger).monitor = s.monitor := by
  unfold State.reloadTrigger; split
  · split <;> rfl
  all_goals rfl
@[simp] theorem State.reloadTrigger_tally (s : State) : (s.reloadTrigger).tally = s.tally := by
  unfold State.reloadTrigger; split
  · split <;> rfl
  all_goals rfl
@[simp] theorem State.reloadTrigger_memory (s : State) : (s.reloadTrigger).memory = s.memory := by
  unfold State.reloadTrigger; split
  · split <;> rfl
  all_goals rfl
@[simp] theorem State.reloadTrigger_capture (s : State) : (s.reloadTrigger).capture = s.capture := by
  unfold State.reloadTrigger; split
  · split <;> rfl
  all_goals rfl
@[simp] theorem State.reloadTrigger_link (s : State) : (s.reloadTrigger).link = s.link := by
  unfold State.reloadTrigger; split
  · split <;> rfl
  all_goals rfl
@[simp] theorem State.reloadTrigger_attention (s : State) : (s.reloadTrigger).attention = s.attention := by
  unfold State.reloadTrigger; split
  · split <;> rfl
  all_goals rfl
@[simp] theorem State.reloadTrigger_pending (s : State) : (s.reloadTrigger).pending = s.pending := by
  unfold State.reloadTrigger; split
  · split <;> rfl
  all_goals rfl

/-! `endRead` changes the loader, the monitor, the capture unit and the attention logic. -/

@[simp] theorem State.endRead_ports (s : State) (b : Option Block) : (s.endRead b).ports = s.ports := by
  unfold State.endRead; split <;> simp
@[simp] theorem State.endRead_pointer (s : State) (b : Option Block) : (s.endRead b).pointer = s.pointer := by
  unfold State.endRead; split <;> simp
@[simp] theorem State.endRead_tally (s : State) (b : Option Block) : (s.endRead b).tally = s.tally := by
  unfold State.endRead; split <;> simp
@[simp] theorem State.endRead_memory (s : State) (b : Option Block) : (s.endRead b).memory = s.memory := by
  unfold State.endRead; split <;> simp
@[simp] theorem State.endRead_link (s : State) (b : Option Block) : (s.endRead b).link = s.link := by
  unfold State.endRead; split <;> simp
@[simp] theorem State.endRead_pending (s : State) (b : Option Block) : (s.endRead b).pending = s.pending := by
  unfold State.endRead; split <;> simp

/-! `loaderRetired` goes on with the read of the block or ends it. -/

@[simp] theorem State.loaderRetired_ports (s : State) (f : BlockRead → BlockRead) : (s.loaderRetired f).ports = s.ports := by
  unfold State.loaderRetired; split
  · rfl
  · split <;> simp
@[simp] theorem State.loaderRetired_pointer (s : State) (f : BlockRead → BlockRead) : (s.loaderRetired f).pointer = s.pointer := by
  unfold State.loaderRetired; split
  · rfl
  · split <;> simp
@[simp] theorem State.loaderRetired_tally (s : State) (f : BlockRead → BlockRead) : (s.loaderRetired f).tally = s.tally := by
  unfold State.loaderRetired; split
  · rfl
  · split <;> simp
@[simp] theorem State.loaderRetired_memory (s : State) (f : BlockRead → BlockRead) : (s.loaderRetired f).memory = s.memory := by
  unfold State.loaderRetired; split
  · rfl
  · split <;> simp
@[simp] theorem State.loaderRetired_link (s : State) (f : BlockRead → BlockRead) : (s.loaderRetired f).link = s.link := by
  unfold State.loaderRetired; split
  · rfl
  · split <;> simp
@[simp] theorem State.loaderRetired_pending (s : State) (f : BlockRead → BlockRead) : (s.loaderRetired f).pending = s.pending := by
  unfold State.loaderRetired; split
  · rfl
  · split <;> simp

/-! A completion leaves the memory port, the arbiter and the link as they are. -/

@[simp] theorem State.okayCompletion_pointer (s : State) (e : OutEntry) (d : BitVec 512) : (s.okayCompletion e d).pointer = s.pointer := by
  unfold State.okayCompletion; split
  · dsimp only; split <;> simp
  all_goals simp
@[simp] theorem State.okayCompletion_memory (s : State) (e : OutEntry) (d : BitVec 512) : (s.okayCompletion e d).memory = s.memory := by
  unfold State.okayCompletion; split
  · dsimp only; split <;> simp
  all_goals simp
@[simp] theorem State.okayCompletion_link (s : State) (e : OutEntry) (d : BitVec 512) : (s.okayCompletion e d).link = s.link := by
  unfold State.okayCompletion; split
  · dsimp only; split <;> simp
  all_goals simp
@[simp] theorem State.okayCompletion_pending (s : State) (e : OutEntry) (d : BitVec 512) : (s.okayCompletion e d).pending = s.pending := by
  unfold State.okayCompletion; split
  · dsimp only; split <;> simp
  all_goals simp

/-! A failed completion leaves the memory port, the arbiter and the link as they are. -/

@[simp] theorem State.failedCompletion_pointer (s : State) (e : OutEntry) (k : Cause) : (s.failedCompletion e k).pointer = s.pointer := by
  unfold State.failedCompletion; split
  · dsimp only; split <;> simp
  all_goals simp
@[simp] theorem State.failedCompletion_memory (s : State) (e : OutEntry) (k : Cause) : (s.failedCompletion e k).memory = s.memory := by
  unfold State.failedCompletion; split
  · dsimp only; split <;> simp
  all_goals simp
@[simp] theorem State.failedCompletion_link (s : State) (e : OutEntry) (k : Cause) : (s.failedCompletion e k).link = s.link := by
  unfold State.failedCompletion; split
  · dsimp only; split <;> simp
  all_goals simp
@[simp] theorem State.failedCompletion_pending (s : State) (e : OutEntry) (k : Cause) : (s.failedCompletion e k).pending = s.pending := by
  unfold State.failedCompletion; split
  · dsimp only; split <;> simp
  all_goals simp

/-! `portReset` leaves the arbiter, the tally engine, the memory port and the loader as they are (R108). -/

@[simp] theorem State.portReset_pointer (s : State) (p : PortIx) : (s.portReset p).pointer = s.pointer := by
  simp [State.portReset]
@[simp] theorem State.portReset_tally (s : State) (p : PortIx) : (s.portReset p).tally = s.tally := by
  simp [State.portReset]
@[simp] theorem State.portReset_memory (s : State) (p : PortIx) : (s.portReset p).memory = s.memory := by
  simp [State.portReset]
@[simp] theorem State.portReset_loader (s : State) (p : PortIx) : (s.portReset p).loader = s.loader := by
  simp [State.portReset]
@[simp] theorem State.portReset_pending (s : State) (p : PortIx) : (s.portReset p).pending = s.pending := by
  simp [State.portReset]

/-! `issueRequest` changes the tally engine's waiting halves and the memory port. -/

@[simp] theorem State.issueRequest_ports (s : State) (g : Grant) : (s.issueRequest g).ports = s.ports := by
  simp [State.issueRequest]
@[simp] theorem State.issueRequest_pointer (s : State) (g : Grant) : (s.issueRequest g).pointer = s.pointer := by
  simp [State.issueRequest]
@[simp] theorem State.issueRequest_monitor (s : State) (g : Grant) : (s.issueRequest g).monitor = s.monitor := by
  simp [State.issueRequest]
@[simp] theorem State.issueRequest_loader (s : State) (g : Grant) : (s.issueRequest g).loader = s.loader := by
  simp [State.issueRequest]
@[simp] theorem State.issueRequest_capture (s : State) (g : Grant) : (s.issueRequest g).capture = s.capture := by
  simp [State.issueRequest]
@[simp] theorem State.issueRequest_link (s : State) (g : Grant) : (s.issueRequest g).link = s.link := by
  simp [State.issueRequest]
@[simp] theorem State.issueRequest_attention (s : State) (g : Grant) : (s.issueRequest g).attention = s.attention := by
  simp [State.issueRequest]
@[simp] theorem State.issueRequest_pending (s : State) (g : Grant) : (s.issueRequest g).pending = s.pending := by
  simp [State.issueRequest]

/-! `takeTally` changes the tally engine and the memory port. -/

@[simp] theorem State.takeTally_ports (s : State) (g : Grant) (i : SlotIx) : (s.takeTally g i).ports = s.ports := by
  simp [State.takeTally]
@[simp] theorem State.takeTally_pointer (s : State) (g : Grant) (i : SlotIx) : (s.takeTally g i).pointer = s.pointer := by
  simp [State.takeTally]
@[simp] theorem State.takeTally_monitor (s : State) (g : Grant) (i : SlotIx) : (s.takeTally g i).monitor = s.monitor := by
  simp [State.takeTally]
@[simp] theorem State.takeTally_loader (s : State) (g : Grant) (i : SlotIx) : (s.takeTally g i).loader = s.loader := by
  simp [State.takeTally]
@[simp] theorem State.takeTally_capture (s : State) (g : Grant) (i : SlotIx) : (s.takeTally g i).capture = s.capture := by
  simp [State.takeTally]
@[simp] theorem State.takeTally_link (s : State) (g : Grant) (i : SlotIx) : (s.takeTally g i).link = s.link := by
  simp [State.takeTally]
@[simp] theorem State.takeTally_attention (s : State) (g : Grant) (i : SlotIx) : (s.takeTally g i).attention = s.attention := by
  simp [State.takeTally]
@[simp] theorem State.takeTally_pending (s : State) (g : Grant) (i : SlotIx) : (s.takeTally g i).pending = s.pending := by
  simp [State.takeTally]

/-! `leaveQueue` changes one front end and the pointer. -/

@[simp] theorem State.leaveQueue_monitor (s : State) (g : Grant) : (s.leaveQueue g).monitor = s.monitor := rfl
@[simp] theorem State.leaveQueue_tally (s : State) (g : Grant) : (s.leaveQueue g).tally = s.tally := rfl
@[simp] theorem State.leaveQueue_memory (s : State) (g : Grant) : (s.leaveQueue g).memory = s.memory := rfl
@[simp] theorem State.leaveQueue_loader (s : State) (g : Grant) : (s.leaveQueue g).loader = s.loader := rfl
@[simp] theorem State.leaveQueue_capture (s : State) (g : Grant) : (s.leaveQueue g).capture = s.capture := rfl
@[simp] theorem State.leaveQueue_link (s : State) (g : Grant) : (s.leaveQueue g).link = s.link := rfl
@[simp] theorem State.leaveQueue_attention (s : State) (g : Grant) : (s.leaveQueue g).attention = s.attention := rfl
@[simp] theorem State.leaveQueue_pending (s : State) (g : Grant) : (s.leaveQueue g).pending = s.pending := rfl

@[simp] theorem State.leaveQueue_pointer (s : State) (g : Grant) : (s.leaveQueue g).pointer = g.port + 1 := rfl

/-! The expiries of the monitor change the monitor, the capture unit and the attention logic (R31, R75, R79). -/

@[simp] theorem State.leaseExpiry_ports (s : State) (a : Agent) (c : Addr) : (s.leaseExpiry a c).ports = s.ports := by
  simp [State.leaseExpiry]
@[simp] theorem State.leaseExpiry_pointer (s : State) (a : Agent) (c : Addr) : (s.leaseExpiry a c).pointer = s.pointer := by
  simp [State.leaseExpiry]
@[simp] theorem State.leaseExpiry_tally (s : State) (a : Agent) (c : Addr) : (s.leaseExpiry a c).tally = s.tally := by
  simp [State.leaseExpiry]
@[simp] theorem State.leaseExpiry_memory (s : State) (a : Agent) (c : Addr) : (s.leaseExpiry a c).memory = s.memory := by
  simp [State.leaseExpiry]
@[simp] theorem State.leaseExpiry_loader (s : State) (a : Agent) (c : Addr) : (s.leaseExpiry a c).loader = s.loader := by
  simp [State.leaseExpiry]
@[simp] theorem State.leaseExpiry_link (s : State) (a : Agent) (c : Addr) : (s.leaseExpiry a c).link = s.link := by
  simp [State.leaseExpiry]
@[simp] theorem State.leaseExpiry_pending (s : State) (a : Agent) (c : Addr) : (s.leaseExpiry a c).pending = s.pending := by
  simp [State.leaseExpiry]

@[simp] theorem State.entitlementExpiry_ports (s : State) (i : SlotIx) : (s.entitlementExpiry i).ports = s.ports := by
  simp [State.entitlementExpiry]
@[simp] theorem State.entitlementExpiry_pointer (s : State) (i : SlotIx) : (s.entitlementExpiry i).pointer = s.pointer := by
  simp [State.entitlementExpiry]
@[simp] theorem State.entitlementExpiry_tally (s : State) (i : SlotIx) : (s.entitlementExpiry i).tally = s.tally := by
  simp [State.entitlementExpiry]
@[simp] theorem State.entitlementExpiry_memory (s : State) (i : SlotIx) : (s.entitlementExpiry i).memory = s.memory := by
  simp [State.entitlementExpiry]
@[simp] theorem State.entitlementExpiry_loader (s : State) (i : SlotIx) : (s.entitlementExpiry i).loader = s.loader := by
  simp [State.entitlementExpiry]
@[simp] theorem State.entitlementExpiry_link (s : State) (i : SlotIx) : (s.entitlementExpiry i).link = s.link := by
  simp [State.entitlementExpiry]
@[simp] theorem State.entitlementExpiry_pending (s : State) (i : SlotIx) : (s.entitlementExpiry i).pending = s.pending := by
  simp [State.entitlementExpiry]

@[simp] theorem State.holdExpiry_ports (s : State) (i : SlotIx) : (s.holdExpiry i).ports = s.ports := by
  simp [State.holdExpiry]
@[simp] theorem State.holdExpiry_pointer (s : State) (i : SlotIx) : (s.holdExpiry i).pointer = s.pointer := by
  simp [State.holdExpiry]
@[simp] theorem State.holdExpiry_tally (s : State) (i : SlotIx) : (s.holdExpiry i).tally = s.tally := by
  simp [State.holdExpiry]
@[simp] theorem State.holdExpiry_memory (s : State) (i : SlotIx) : (s.holdExpiry i).memory = s.memory := by
  simp [State.holdExpiry]
@[simp] theorem State.holdExpiry_loader (s : State) (i : SlotIx) : (s.holdExpiry i).loader = s.loader := by
  simp [State.holdExpiry]
@[simp] theorem State.holdExpiry_link (s : State) (i : SlotIx) : (s.holdExpiry i).link = s.link := by
  simp [State.holdExpiry]
@[simp] theorem State.holdExpiry_pending (s : State) (i : SlotIx) : (s.holdExpiry i).pending = s.pending := by
  simp [State.holdExpiry]

/-- Taking leases that have run out leaves every block but the monitor, the capture unit and the attention logic. -/
theorem State.foldl_leaseExpiry_frame (es : List TableEntry) (s : State) :
    (es.foldl (fun x e => x.leaseExpiry e.agent e.cell) s).ports = s.ports
      ∧ (es.foldl (fun x e => x.leaseExpiry e.agent e.cell) s).pointer = s.pointer
      ∧ (es.foldl (fun x e => x.leaseExpiry e.agent e.cell) s).tally = s.tally
      ∧ (es.foldl (fun x e => x.leaseExpiry e.agent e.cell) s).memory = s.memory
      ∧ (es.foldl (fun x e => x.leaseExpiry e.agent e.cell) s).loader = s.loader
      ∧ (es.foldl (fun x e => x.leaseExpiry e.agent e.cell) s).link = s.link
      ∧ (es.foldl (fun x e => x.leaseExpiry e.agent e.cell) s).pending = s.pending := by
  induction es generalizing s with
  | nil => exact ⟨rfl, rfl, rfl, rfl, rfl, rfl, rfl⟩
  | cons e es ih =>
    have h := ih (s.leaseExpiry e.agent e.cell)
    simp only [State.leaseExpiry_ports, State.leaseExpiry_pointer, State.leaseExpiry_tally, State.leaseExpiry_memory,
      State.leaseExpiry_loader, State.leaseExpiry_link, State.leaseExpiry_pending] at h
    exact h

/-! `takeRunOuts` changes the monitor, the capture unit and the attention logic. -/

@[simp] theorem State.takeRunOuts_ports (s : State) : s.takeRunOuts.ports = s.ports := by
  simp [State.takeRunOuts, (State.foldl_leaseExpiry_frame _ s).1]
@[simp] theorem State.takeRunOuts_pointer (s : State) : s.takeRunOuts.pointer = s.pointer := by
  simp [State.takeRunOuts, (State.foldl_leaseExpiry_frame _ s).2.1]
@[simp] theorem State.takeRunOuts_tally (s : State) : s.takeRunOuts.tally = s.tally := by
  simp [State.takeRunOuts, (State.foldl_leaseExpiry_frame _ s).2.2.1]
@[simp] theorem State.takeRunOuts_memory (s : State) : s.takeRunOuts.memory = s.memory := by
  simp [State.takeRunOuts, (State.foldl_leaseExpiry_frame _ s).2.2.2.1]
@[simp] theorem State.takeRunOuts_loader (s : State) : s.takeRunOuts.loader = s.loader := by
  simp [State.takeRunOuts, (State.foldl_leaseExpiry_frame _ s).2.2.2.2.1]
@[simp] theorem State.takeRunOuts_link (s : State) : s.takeRunOuts.link = s.link := by
  simp [State.takeRunOuts, (State.foldl_leaseExpiry_frame _ s).2.2.2.2.2.1]
@[simp] theorem State.takeRunOuts_pending (s : State) : s.takeRunOuts.pending = s.pending := by
  simp [State.takeRunOuts, (State.foldl_leaseExpiry_frame _ s).2.2.2.2.2.2]

/-! `memoryTimeout` leaves the arbiter and the link as they are. -/

@[simp] theorem State.memoryTimeout_pointer (s : State) : s.memoryTimeout.pointer = s.pointer := by
  unfold State.memoryTimeout; split
  · simp [State.retireFailed]
  · rfl
@[simp] theorem State.memoryTimeout_link (s : State) : s.memoryTimeout.link = s.link := by
  unfold State.memoryTimeout; split
  · simp [State.retireFailed]
  · rfl
@[simp] theorem State.memoryTimeout_pending (s : State) : s.memoryTimeout.pending = s.pending := by
  unfold State.memoryTimeout; split
  · simp [State.retireFailed]
  · rfl

/-! `countDown` changes the time base, the monitor and the timer (R146). -/

@[simp] theorem State.countDown_ports (s : State) : s.countDown.ports = s.ports := rfl
@[simp] theorem State.countDown_pointer (s : State) : s.countDown.pointer = s.pointer := rfl
@[simp] theorem State.countDown_tally (s : State) : s.countDown.tally = s.tally := rfl
@[simp] theorem State.countDown_loader (s : State) : s.countDown.loader = s.loader := rfl
@[simp] theorem State.countDown_link (s : State) : s.countDown.link = s.link := rfl
@[simp] theorem State.countDown_attention (s : State) : s.countDown.attention = s.attention := rfl
@[simp] theorem State.countDown_pending (s : State) : s.countDown.pending = s.pending := rfl
@[simp] theorem State.countDown_monitor (s : State) : s.countDown.monitor = s.monitor.tick := rfl
@[simp] theorem State.countDown_capture (s : State) :
    s.countDown.capture = { s.capture with timeBase := s.capture.timeBase + 1 } := rfl
@[simp] theorem State.countDown_memory (s : State) :
    s.countDown.memory = { s.memory with timer := s.memory.timer.map (· - 1) } := rfl

/-! A guarded request leaves the arbiter, the loader and the link as they are. -/

@[simp] theorem State.takeGuardedRead_pointer (s : State) (g : Grant) : (s.takeGuardedRead g).pointer = s.pointer := by
  simp [State.takeGuardedRead]
@[simp] theorem State.takeGuardedRead_loader (s : State) (g : Grant) : (s.takeGuardedRead g).loader = s.loader := by
  simp [State.takeGuardedRead]
@[simp] theorem State.takeGuardedRead_link (s : State) (g : Grant) : (s.takeGuardedRead g).link = s.link := by
  simp [State.takeGuardedRead]
@[simp] theorem State.takeGuardedRead_pending (s : State) (g : Grant) : (s.takeGuardedRead g).pending = s.pending := by
  simp [State.takeGuardedRead]
@[simp] theorem State.takeGuardedWrite_pointer (s : State) (g : Grant) : (s.takeGuardedWrite g).pointer = s.pointer := by
  unfold State.takeGuardedWrite; split <;> simp
@[simp] theorem State.takeGuardedWrite_loader (s : State) (g : Grant) : (s.takeGuardedWrite g).loader = s.loader := by
  unfold State.takeGuardedWrite; split <;> simp
@[simp] theorem State.takeGuardedWrite_link (s : State) (g : Grant) : (s.takeGuardedWrite g).link = s.link := by
  unfold State.takeGuardedWrite; split <;> simp
@[simp] theorem State.takeGuardedWrite_pending (s : State) (g : Grant) : (s.takeGuardedWrite g).pending = s.pending := by
  unfold State.takeGuardedWrite; split <;> simp

/-! The effects of a grant leave the arbiter's pointer, the loader and the link as they are (R114). -/

@[simp] theorem State.grantEffects_pointer (s : State) (g : Grant) : (s.grantEffects g).pointer = s.pointer := by
  unfold State.grantEffects; split
  all_goals first
    | simp
    | (split <;> simp)
@[simp] theorem State.grantEffects_loader (s : State) (g : Grant) : (s.grantEffects g).loader = s.loader := by
  unfold State.grantEffects; split
  all_goals first
    | simp
    | (split <;> simp)
@[simp] theorem State.grantEffects_link (s : State) (g : Grant) : (s.grantEffects g).link = s.link := by
  unfold State.grantEffects; split
  all_goals first
    | simp
    | (split <;> simp)
@[simp] theorem State.grantEffects_pending (s : State) (g : Grant) : (s.grantEffects g).pending = s.pending := by
  unfold State.grantEffects; split
  all_goals first
    | simp
    | (split <;> simp)

end Sys2Proof.Machine
end

