-- ==== Sys2Proof/Laws/Ops.lean ====
section
/-! SUPPORT. Laws/Ops.lean: one lemma for each shared operation over the whole part that says everything it can do. -/
namespace Sys2Proof.Machine

/-! ### Attention (R171, R172) -/

@[simp] theorem Attention.raise_mask (a : Attention) (f : CauseFlag) : (a.raise f).mask = a.mask := rfl
@[simp] theorem Attention.raise_flags (a : Attention) (f : CauseFlag) : (a.raise f).flags = a.flags ||| f.bit := rfl
@[simp] theorem Attention.raise_marks (a : Attention) (f : CauseFlag) : (a.raise f).marks = a.marks.map (· ||| f.bit) := rfl

/-- What taking one record does to the attention logic: nothing, or the set request for FROZEN. -/
theorem State.offer_attention_cases (s : State) (r : Record) :
    (s.offer r).attention = s.attention ∨ (s.offer r).attention = s.attention.raise .frozen := by
  rw [State.offer_attention]; split
  · exact .inr rfl
  · exact .inl rfl

/-! ### The capture unit (R152) -/

/-- Taking a record changes the ring, the counts and the state alone. -/
theorem Capture.take_frame (c : Capture) (r : Record) :
    (c.take r).timeBase = c.timeBase ∧ (c.take r).setup = c.setup := by
  unfold Capture.take
  split
  · exact ⟨rfl, rfl⟩
  · exact ⟨rfl, rfl⟩
  · split
    · unfold Capture.takeRunning
      split
      · split
        · unfold Capture.takeTrigger; split <;> exact ⟨rfl, rfl⟩
        · exact ⟨rfl, rfl⟩
      · exact ⟨rfl, rfl⟩
    · exact ⟨rfl, rfl⟩
  · split
    · exact ⟨rfl, rfl⟩
    · exact ⟨rfl, rfl⟩

@[simp] theorem Capture.take_timeBase (c : Capture) (r : Record) : (c.take r).timeBase = c.timeBase := (c.take_frame r).1
@[simp] theorem Capture.take_setup (c : Capture) (r : Record) : (c.take r).setup = c.setup := (c.take_frame r).2

/-- A capture that is OFF or FROZEN discards every record (R152). -/
theorem Capture.take_idle {c : Capture} (h : c.idle = true) (r : Record) : c.take r = c := by
  unfold Capture.idle at h
  unfold Capture.take
  split at h <;> rename_i hs <;> simp_all

/-- Taking a run of records changes neither the time base nor the setup. -/
@[simp] theorem Capture.foldl_take_timeBase (rs : List Record) (c : Capture) : (rs.foldl Capture.take c).timeBase = c.timeBase := by
  induction rs generalizing c with
  | nil => rfl
  | cons r rs ih => rw [List.foldl_cons, ih, Capture.take_timeBase]

@[simp] theorem Capture.foldl_take_setup (rs : List Record) (c : Capture) : (rs.foldl Capture.take c).setup = c.setup := by
  induction rs generalizing c with
  | nil => rfl
  | cons r rs ih => rw [List.foldl_cons, ih, Capture.take_setup]

/-! ### The memory port (R119, R121) -/

/-- An issue: the next tag, the newest end, the controller's record, and the timer only into an empty list. -/
theorem MemoryPort.issue_spec (m : MemoryPort) (timeout : Nat) (d : Dir) (x : Addr) (l : Length) (b : List Byte) (o : Origin) :
    ∃ tx : Transaction, tx = { tag := m.nextTag, dir := d, addr := x, len := l, data := b }
      ∧ (m.issue timeout d x l b o).outstanding = m.outstanding ++ [{ tx := tx, origin := o }]
      ∧ (m.issue timeout d x l b o).nextTag = m.nextTag + 1
      ∧ (m.issue timeout d x l b o).issued = m.issued ++ [tx]
      ∧ (m.issue timeout d x l b o).timer = if m.outstanding = [] then startTimer timeout else m.timer := by
  refine ⟨_, rfl, rfl, rfl, rfl, ?_⟩
  simp [MemoryPort.issue]

/-- A retirement: the oldest entry leaves, and the timer starts for the next. -/
theorem MemoryPort.retire_spec (m : MemoryPort) (timeout : Nat) :
    (m.retire timeout).outstanding = m.outstanding.drop 1 ∧ (m.retire timeout).nextTag = m.nextTag
      ∧ (m.retire timeout).issued = m.issued
      ∧ (m.retire timeout).timer = if m.outstanding.drop 1 = [] then none else startTimer timeout := by
  refine ⟨rfl, rfl, rfl, ?_⟩
  simp [MemoryPort.retire]

/-- The memory timeout: the oldest entry is retired as MEM_TIMEOUT when the running timer has come to 0, or nothing happens (R124, R125). -/
theorem State.memoryTimeout_cases (s : State) :
    (∃ e rest, s.memory.outstanding = e :: rest ∧ s.memory.timer = some 0
        ∧ s.memoryTimeout = s.retireFailed e .memTimeout .memTimeout)
      ∨ ((s.memory.outstanding = [] ∨ s.memory.timer ≠ some 0) ∧ s.memoryTimeout = s) := by
  unfold State.memoryTimeout
  split
  · rename_i e rest h1 h2; exact .inl ⟨e, rest, h1, h2, rfl⟩
  · rename_i h
    refine .inr ⟨?_, rfl⟩
    cases hs : s.memory.outstanding with
    | nil => exact .inl rfl
    | cons e rest => exact .inr fun ht => h e rest hs ht

/-! ### The expiries (R30, R31, R75, R79) -/

/-- An expiry that answers nothing leaves the state as it is. -/
theorem State.takeMonitor_nothing (s : State) : s.takeMonitor { monitor := s.monitor, records := [] } = s := rfl

/-- With no lease and no slot at 0 there is no expiry to take. -/
theorem State.takeRunOuts_eq_self {s : State} (ht : ∀ e ∈ s.monitor.table, e.lease ≠ 0)
    (he : ∀ i a, s.monitor.slots.get i ≠ .entitled a 0) (hh : ∀ i a c r, s.monitor.slots.get i ≠ .holding a c r 0) :
    s.takeRunOuts = s := by
  have hf : (s.monitor.table.filter fun e => e.lease == 0) = [] := by
    rw [List.filter_eq_nil_iff]; intro e hm; simpa using ht e hm
  have h1 : ∀ i, s.entitlementExpiry i = s := by
    intro i
    rcases Monitor.entitlementExpiry_cases s.monitor i s.loader.entitlementLimit with ⟨a, h, -⟩ | ⟨-, h⟩
    · exact absurd h (he i a)
    · rw [State.entitlementExpiry, h, State.takeMonitor_nothing]
  have h2 : ∀ i, s.holdExpiry i = s := by
    intro i
    rcases Monitor.holdExpiry_cases s.monitor i s.loader.entitlementLimit with ⟨a, c, r, h, -⟩ | ⟨-, h⟩
    · exact absurd h (hh i a c r)
    · rw [State.holdExpiry, h, State.takeMonitor_nothing]
  simp [State.takeRunOuts, hf, h1, h2]

/-! ### Tallies (R91) -/

/-- The issue of a write half: nothing waits; or the slot that has waited longest gets the next tag and its write is issued; or the slot
named is FREE, which no lawful tally engine has, and it leaves the list. -/
theorem State.issueWriteHalf_cases (s : State) :
    (s.tally.waiting = [] ∧ s.issueWriteHalf = s)
      ∨ (∃ i rest t, s.tally.waiting = i :: rest ∧ s.tally.slots.get i = some t
        ∧ s.issueWriteHalf =
          { s with
            tally := { slots := s.tally.slots.set i (some { t with tag := some s.memory.nextTag }), waiting := rest }
            memory :=
              s.memory.issue s.loader.memoryTimeout .write t.addr t.width.len t.writeData (.tallyWrite t.owner i) })
      ∨ (∃ i rest, s.tally.waiting = i :: rest ∧ s.tally.slots.get i = none
        ∧ s.issueWriteHalf = { s with tally := { s.tally with waiting := rest } }) := by
  unfold State.issueWriteHalf
  split
  · rename_i h; exact .inl ⟨h, rfl⟩
  · rename_i i rest h
    split
    · rename_i t ht; exact .inr (.inl ⟨i, rest, t, h, ht, rfl⟩)
    · rename_i ht; exact .inr (.inr ⟨i, rest, h, ht, rfl⟩)

/-- Issuing a write half shortens the list of those that wait. -/
theorem State.issueWriteHalf_waiting (s : State) : s.issueWriteHalf.tally.waiting = s.tally.waiting.drop 1 := by
  rcases State.issueWriteHalf_cases s with ⟨h, e⟩ | ⟨i, rest, t, h, -, e⟩ | ⟨i, rest, h, -, e⟩ <;> rw [e, h] <;>
    simp

/-- After all of them are issued none waits. -/
@[simp] theorem State.issueWriteHalves_waiting (s : State) : s.issueWriteHalves.tally.waiting = [] := by
  have key : ∀ (w : List SlotIx) (x : State), x.tally.waiting = w →
      (w.foldl (fun y _ => y.issueWriteHalf) x).tally.waiting = [] := by
    intro w
    induction w with
    | nil => intro x h; exact h
    | cons i rest ih =>
      intro x h
      rw [List.foldl_cons]
      exact ih _ (by rw [State.issueWriteHalf_waiting, h]; rfl)
  exact key _ s rfl

/-- The end of a tally frees its slot and leaves the order of the waiting write halves. -/
theorem State.endTally_tally (s : State) (i : SlotIx) (t : Tally) (k : Cause) (r : Record) :
    (s.endTally i t k r).tally = s.tally.setSlot i none := by
  unfold State.endTally; dsimp only; split <;> simp

/-! ### The link (R162 to R164) -/

/-- A command at its point of effect: the controller waits and nothing happens, or the effect is taken after an earlier frame's end. -/
theorem State.atPointOfEffect_cases (s : State) (f : State → State) :
    (s.link.frame = .awaitRise ∧ s.atPointOfEffect f = s)
      ∨ (s.link.frame ≠ .awaitRise ∧ s.atPointOfEffect f = f s.endFrame) := by
  unfold State.atPointOfEffect
  split <;> rename_i h
  · exact .inl ⟨h, rfl⟩
  · exact .inr ⟨by simp [h], rfl⟩
  · exact .inr ⟨by simp [h], rfl⟩

/-! ### Snapshots (R178, R179) -/

@[simp] theorem leBytes_length (n v : Nat) : (leBytes n v).length = n := by
  induction n generalizing v with
  | zero => rfl
  | succ n ih => simp [leBytes, ih]

@[simp] theorem LossEntry.bytes_length (e : LossEntry) : e.bytes.length = 5 := by simp [LossEntry.bytes]
@[simp] theorem TableEntry.bytes_length (e : TableEntry) : e.bytes.length = 8 := by simp [TableEntry.bytes]
@[simp] theorem HoldSlot.bytes_length (h : HoldSlot) : h.bytes.length = 9 := by cases h <;> simp [HoldSlot.bytes]
@[simp] theorem RegionKind.bytes_length (k : RegionKind) : k.bytes.length = 9 := by cases k <;> simp [RegionKind.bytes]
@[simp] theorem RingRecord.bytes_length (x : RingRecord) : x.bytes.length = 18 := by
  unfold RingRecord.bytes; cases x.record.place <;> simp

/-- The bytes of an unsigned number that fits in them give it back, least significant first (R178). -/
theorem leNat_leBytes (n v : Nat) (h : v < 256 ^ n) : leNat (leBytes n v) = v := by
  induction n generalizing v with
  | zero => simp only [Nat.pow_zero, Nat.lt_one_iff] at h; subst h; rfl
  | succ n ih =>
    have hd : v / 256 < 256 ^ n := by
      rw [Nat.div_lt_iff_lt_mul (Nat.zero_lt_succ 255)]; rwa [Nat.pow_succ] at h
    simp only [leBytes, leNat, ih _ hd, BitVec.toNat_ofNat]
    omega

end Sys2Proof.Machine
end

