-- ==== Sys2Proof/Laws/Checks.lean ====
section
/-! SUPPORT. Laws/Checks.lean: the laws of Safety.lean in forms that a concrete state is checked against by evaluation: no quantifier over
addresses is left in them. -/
namespace Sys2Proof.Machine

/-- No two of the four slots have the same present value of `f`. -/
theorem distinct_iff {α β : Type} (s : Four α) (f : α → Option β) :
    (∀ i j x, f (s.get i) = some x → f (s.get j) = some x → i = j) ↔
      ∀ i j, f (s.get i) ≠ none → f (s.get i) = f (s.get j) → i = j := by
  constructor
  · intro h i j hn he
    obtain ⟨x, hx⟩ := Option.ne_none_iff_exists'.mp hn
    exact h i j x hx (he ▸ hx)
  · intro h i j x hi hj
    exact h i j (by simp [hi]) (hi.trans hj.symm)

/-- A slot is HOLDING some cell for the agent when the agent occupies it and it has a cell. -/
theorem HoldSlot.exists_holds_iff (h : HoldSlot) (a : Agent) :
    (∃ c, h.holds a c = true) ↔ h.agent? = some a ∧ h.cell? ≠ none := by
  cases h <;> simp [HoldSlot.holds, HoldSlot.agent?, HoldSlot.cell?]

/-- R65 without a quantifier over addresses. -/
theorem Monitor.slotsLawful_iff (m : Monitor) :
    m.slotsLawful ↔
      (∀ i j, (m.slots.get i).agent? ≠ none → (m.slots.get i).agent? = (m.slots.get j).agent? → i = j)
        ∧ (∀ i j, (m.slots.get i).cell? ≠ none → (m.slots.get i).cell? = (m.slots.get j).cell? → i = j)
        ∧ (∀ a, (m.ctx a).state = .entitled ↔ ∃ i, (m.slots.get i).entitles a = true)
        ∧ ∀ a, (m.ctx a).state = .holding ↔ ∃ i, (m.slots.get i).agent? = some a ∧ (m.slots.get i).cell? ≠ none := by
  unfold Monitor.slotsLawful
  rw [distinct_iff m.slots HoldSlot.agent?, distinct_iff m.slots HoldSlot.cell?]
  simp only [HoldSlot.exists_holds_iff]

/-- R25 without a quantifier over addresses. -/
theorem Monitor.holdersLawful_iff (m : Monitor) :
    m.holdersLawful ↔
      ∀ i, (match m.slots.get i with
        | .free => true
        | .entitled _ _ => true
        | .holding a c _ _ => (m.entry a c).isNone) = true := by
  unfold Monitor.holdersLawful
  constructor
  · intro h i
    split
    · rfl
    · rfl
    · next a c r n hs => simpa using h i a c (by simp [hs, HoldSlot.holds])
  · intro h i a c hh
    obtain ⟨r, n, hs⟩ := (HoldSlot.holds_iff _ a c).mp hh
    simpa [hs] using h i

/-- No slot is HOLDING the cell, by the cells of the slots. -/
theorem Monitor.not_held_iff (m : Monitor) (c : Addr) :
    (∀ i b r n, m.slots.get i ≠ .holding b c r n) ↔ ∀ i, (m.slots.get i).cell? ≠ some c := by
  constructor
  · intro h i
    cases hs : m.slots.get i with
    | free => simp [HoldSlot.cell?]
    | entitled b n => simp [HoldSlot.cell?]
    | holding b d r n =>
      intro hc
      exact h i b r n (by simpa [hs, HoldSlot.cell?] using hc)
  · intro h i b r n hs
    exact h i (by simp [hs, HoldSlot.cell?])

/-- The agent is not HOLDING the cell, by evaluation of the slots. -/
theorem Monitor.not_holding_iff (m : Monitor) (a : Agent) (c : Addr) :
    (∀ i r n, m.slots.get i ≠ .holding a c r n) ↔ ∀ i, (m.slots.get i).holds a c = false := by
  simp only [← Bool.not_eq_true, HoldSlot.holds_iff, not_exists, ne_eq]

/-- The agent is not ENTITLED, by evaluation of the slots. -/
theorem Monitor.not_entitled_iff (m : Monitor) (a : Agent) :
    (∀ i n, m.slots.get i ≠ .entitled a n) ↔ ∀ i, (m.slots.get i).entitles a = false := by
  simp only [← Bool.not_eq_true, HoldSlot.entitles_iff, not_exists, ne_eq]

/-- A monitor in which nothing has run out has no expiry to take. -/
theorem State.takeRunOuts_of_noneRunOut {s : State} (h : s.monitor.noneRunOut) : s.takeRunOuts = s := by
  refine State.takeRunOuts_eq_self h.1 (fun i a hs => ?_) (fun i a c r hs => ?_)
  · simpa [hs, HoldSlot.ranOut] using h.2 i
  · simpa [hs, HoldSlot.ranOut] using h.2 i

/-- The laws of the reservation monitor, part by part, without a quantifier over addresses. -/
theorem Monitor.lawful_iff (m : Monitor) :
    m.lawful ↔
      (m.table.length ≤ Config.tableSize
        ∧ m.table.Pairwise (fun e f => ¬(e.agent = f.agent ∧ e.cell = f.cell))
        ∧ ∀ a, m.entriesOf a ≤ Config.agentEntries)
      ∧ (∀ a, (m.ctx a).loss.length ≤ Config.lossSize
        ∧ (m.ctx a).loss.Pairwise (fun x y => x.cell ≠ y.cell)
        ∧ (∀ x ∈ (m.ctx a).loss, x.cause.isLoss = true)
        ∧ (∀ x ∈ (m.ctx a).loss, m.entry a x.cell = none)
        ∧ ∀ x ∈ (m.ctx a).loss, m.findSlot (·.holds a x.cell) = none)
      ∧ ((∀ i j, (m.slots.get i).agent? ≠ none → (m.slots.get i).agent? = (m.slots.get j).agent? → i = j)
        ∧ (∀ i j, (m.slots.get i).cell? ≠ none → (m.slots.get i).cell? = (m.slots.get j).cell? → i = j)
        ∧ (∀ a, (m.ctx a).state = .entitled ↔ ∃ i, (m.slots.get i).entitles a = true)
        ∧ ∀ a, (m.ctx a).state = .holding ↔ ∃ i, (m.slots.get i).agent? = some a ∧ (m.slots.get i).cell? ≠ none)
      ∧ (m.waitList.Nodup
        ∧ (∀ a, (m.ctx a).state = .waiting ↔ a ∈ m.waitList)
        ∧ (m.waitList ≠ [] → ∀ i, (m.slots.get i).isFree = false))
      ∧ (∀ i, (match m.slots.get i with
        | .free => true
        | .entitled _ _ => true
        | .holding a c _ _ => (m.entry a c).isNone) = true)
      ∧ ∀ a, (m.ctx a).streak ≤ Config.streakTop ∧ (m.ctx a).commits ≤ Config.counterTop
        ∧ (m.ctx a).refusals ≤ Config.counterTop := by
  unfold Monitor.lawful
  rw [Monitor.slotsLawful_iff, Monitor.holdersLawful_iff]
  rfl

end Sys2Proof.Machine
end

