-- ==== Sys2Proof/Laws/PerInstr.lean ====
section
/-! SUPPORT. Laws/PerInstr.lean: the family FrameLength: a frame's bytes up to its point of effect are the command byte and the argument
bytes of section 11.3, one lemma for each command. -/
namespace Sys2Proof.Laws

/-- Argument bytes of a link command (11.3); an event that is no frame has none. -/
def argumentBytes : Instr → Nat
  | .powerOnReset _ _ _ _ => 0
  | .portReset _ => 0
  | .prstDeasserted _ => 0
  | .acceptance _ _ => 0
  | .admission => 0
  | .writeHalfIssue => 0
  | .loaderReadIssue => 0
  | .memoryResponse _ _ _ => 0
  | .memoryTimeout => 0
  | .fetching => 0
  | .responseDeparture _ => 0
  | .timeBaseTick => 0
  | .leaseExpiry _ _ => 0
  | .entitlementExpiry _ => 0
  | .holdLimitExpiry _ => 0
  | .status => 0
  | .causes => 0
  | .causesCompletion => 0
  | .setmask _ => 1
  | .agent _ _ => 2
  | .agentClear => 0
  | .reservations => 0
  | .holds => 0
  | .region _ => 1
  | .captureSetup _ => 16
  | .captureArm => 0
  | .captureStop => 0
  | .captureRead _ _ => 3
  | .monitorReset => 0
  | .halt => 0
  | .resume => 0
  | .badcmd _ => 0
  | .frameCutShort => 0
  | .frameCutShortAfterPointOfEffect => 0

/-- The frame of the command, where it has one, is the command byte and its argument bytes (R162). -/
def FrameLength.Statement (i : Instr) : Prop :=
  ∀ bytes, encodeFrame i = some bytes → bytes.length = 1 + argumentBytes i

/-- A command that is no frame satisfies the statement. -/
theorem FrameLength.of_none {i : Instr} (h : encodeFrame i = none) : FrameLength.Statement i := by
  intro bytes hb; rw [h] at hb; cases hb

/-- A command whose frame is known satisfies the statement if the length is right. -/
theorem FrameLength.of_some {i : Instr} {bs : List Byte} (h : encodeFrame i = some bs) (hl : bs.length = 1 + argumentBytes i) :
    FrameLength.Statement i := by
  intro bytes hb; rw [h] at hb; cases hb; exact hl

theorem FrameLength.powerOnReset (pbase ownp : Fin 4) (prst : BitVec 4) (csLow : Bool) : FrameLength.Statement (.powerOnReset pbase ownp prst csLow) := FrameLength.of_none rfl
theorem FrameLength.portReset (p : PortIx) : FrameLength.Statement (.portReset p) := FrameLength.of_none rfl
theorem FrameLength.prstDeasserted (p : PortIx) : FrameLength.Statement (.prstDeasserted p) := FrameLength.of_none rfl
theorem FrameLength.acceptance (p : PortIx) (r : Req) : FrameLength.Statement (.acceptance p r) := FrameLength.of_none rfl
theorem FrameLength.admission : FrameLength.Statement .admission := FrameLength.of_none rfl
theorem FrameLength.writeHalfIssue : FrameLength.Statement .writeHalfIssue := FrameLength.of_none rfl
theorem FrameLength.loaderReadIssue : FrameLength.Statement .loaderReadIssue := FrameLength.of_none rfl
theorem FrameLength.memoryResponse (tag : BitVec 5) (okay : Bool) (data : BitVec 512) : FrameLength.Statement (.memoryResponse tag okay data) := FrameLength.of_none rfl
theorem FrameLength.memoryTimeout : FrameLength.Statement .memoryTimeout := FrameLength.of_none rfl
theorem FrameLength.fetching : FrameLength.Statement .fetching := FrameLength.of_none rfl
theorem FrameLength.responseDeparture (p : PortIx) : FrameLength.Statement (.responseDeparture p) := FrameLength.of_none rfl
theorem FrameLength.timeBaseTick : FrameLength.Statement .timeBaseTick := FrameLength.of_none rfl
theorem FrameLength.leaseExpiry (a : Agent) (c : Addr) : FrameLength.Statement (.leaseExpiry a c) := FrameLength.of_none rfl
theorem FrameLength.entitlementExpiry (i : SlotIx) : FrameLength.Statement (.entitlementExpiry i) := FrameLength.of_none rfl
theorem FrameLength.holdLimitExpiry (i : SlotIx) : FrameLength.Statement (.holdLimitExpiry i) := FrameLength.of_none rfl
theorem FrameLength.status : FrameLength.Statement .status := FrameLength.of_some rfl rfl
theorem FrameLength.causes : FrameLength.Statement .causes := FrameLength.of_some rfl rfl
theorem FrameLength.causesCompletion : FrameLength.Statement .causesCompletion := FrameLength.of_none rfl
theorem FrameLength.setmask (m : Byte) : FrameLength.Statement (.setmask m) := FrameLength.of_some rfl rfl
theorem FrameLength.agent (n c : Byte) : FrameLength.Statement (.agent n c) := FrameLength.of_some rfl rfl
theorem FrameLength.agentClear : FrameLength.Statement .agentClear := FrameLength.of_none rfl
theorem FrameLength.reservations : FrameLength.Statement .reservations := FrameLength.of_some rfl rfl
theorem FrameLength.holds : FrameLength.Statement .holds := FrameLength.of_some rfl rfl
theorem FrameLength.region (i : Byte) : FrameLength.Statement (.region i) := FrameLength.of_some rfl rfl
theorem FrameLength.captureSetup (a : SetupArgs) : FrameLength.Statement (.captureSetup a) := FrameLength.of_some rfl rfl
theorem FrameLength.captureArm : FrameLength.Statement .captureArm := FrameLength.of_some rfl rfl
theorem FrameLength.captureStop : FrameLength.Statement .captureStop := FrameLength.of_some rfl rfl
theorem FrameLength.captureRead (i : Byte) (c : BitVec 16) : FrameLength.Statement (.captureRead i c) := FrameLength.of_some rfl rfl
theorem FrameLength.monitorReset : FrameLength.Statement .monitorReset := FrameLength.of_some rfl rfl
theorem FrameLength.halt : FrameLength.Statement .halt := FrameLength.of_some rfl rfl
theorem FrameLength.resume : FrameLength.Statement .resume := FrameLength.of_some rfl rfl
theorem FrameLength.badcmd (b : Byte) : FrameLength.Statement (.badcmd b) := FrameLength.of_some rfl rfl
theorem FrameLength.frameCutShort : FrameLength.Statement .frameCutShort := FrameLength.of_none rfl
theorem FrameLength.frameCutShortAfterPointOfEffect : FrameLength.Statement .frameCutShortAfterPointOfEffect := FrameLength.of_none rfl

end Sys2Proof.Laws
end

