-- ==== Sys2Proof/Laws/Ports.lean ====
section
/-! SUPPORT. Laws/Ports.lean: what each operation of an agent port front end leaves, and what it makes of the order list. -/
namespace Sys2Proof.Machine

@[simp] theorem Port.sweep_queue (q : Port) : q.sweep.queue = q.queue := rfl
@[simp] theorem Port.sweep_epoch (q : Port) : q.sweep.epoch = q.epoch := rfl
@[simp] theorem Port.sweep_resetAsserted (q : Port) : q.sweep.resetAsserted = q.resetAsserted := rfl
@[simp] theorem Port.sweep_nextId (q : Port) : q.sweep.nextId = q.nextId := rfl
@[simp] theorem Port.sweep_taken (q : Port) : q.sweep.taken = q.taken := rfl
@[simp] theorem Port.sweep_order (q : Port) : q.sweep.order = q.order.dropWhile fun e => e.state.isFinished := rfl

@[simp] theorem Port.updEntry_queue (q : Port) (id : Nat) (f : EntryState → EntryState) : (q.updEntry id f).queue = q.queue := rfl
@[simp] theorem Port.updEntry_epoch (q : Port) (id : Nat) (f : EntryState → EntryState) : (q.updEntry id f).epoch = q.epoch := rfl
@[simp] theorem Port.updEntry_resetAsserted (q : Port) (id : Nat) (f : EntryState → EntryState) :
    (q.updEntry id f).resetAsserted = q.resetAsserted := rfl
@[simp] theorem Port.updEntry_nextId (q : Port) (id : Nat) (f : EntryState → EntryState) : (q.updEntry id f).nextId = q.nextId := rfl
@[simp] theorem Port.updEntry_taken (q : Port) (id : Nat) (f : EntryState → EntryState) : (q.updEntry id f).taken = q.taken := rfl

@[simp] theorem Port.complete_queue (q : Port) (id : Nat) (r : Response) : (q.complete id r).queue = q.queue := rfl
@[simp] theorem Port.complete_epoch (q : Port) (id : Nat) (r : Response) : (q.complete id r).epoch = q.epoch := rfl
@[simp] theorem Port.complete_resetAsserted (q : Port) (id : Nat) (r : Response) :
    (q.complete id r).resetAsserted = q.resetAsserted := rfl
@[simp] theorem Port.complete_nextId (q : Port) (id : Nat) (r : Response) : (q.complete id r).nextId = q.nextId := rfl
@[simp] theorem Port.complete_taken (q : Port) (id : Nat) (r : Response) : (q.complete id r).taken = q.taken := rfl

@[simp] theorem Port.finish_queue (q : Port) (id : Nat) : (q.finish id).queue = q.queue := rfl
@[simp] theorem Port.finish_epoch (q : Port) (id : Nat) : (q.finish id).epoch = q.epoch := rfl
@[simp] theorem Port.finish_resetAsserted (q : Port) (id : Nat) : (q.finish id).resetAsserted = q.resetAsserted := rfl
@[simp] theorem Port.finish_nextId (q : Port) (id : Nat) : (q.finish id).nextId = q.nextId := rfl
@[simp] theorem Port.finish_taken (q : Port) (id : Nat) : (q.finish id).taken = q.taken := rfl

/-- The head left by the removal of finished entries is not one of them (R107). -/
theorem Port.sweep_head (q : Port) (e : OrderEntry) (h : q.sweep.order.head? = some e) : e.state.isFinished = false := by
  rw [Port.sweep_order] at h
  have := List.head?_dropWhile_not (fun e : OrderEntry => e.state.isFinished) q.order
  rw [h] at this
  simpa using this

/-- Removal of finished heads keeps every entry whose work is left. -/
theorem Port.mem_sweep_of_unfinished {q : Port} {e : OrderEntry} (h : e ∈ q.order) (hf : e.state.isFinished = false) :
    e ∈ q.sweep.order := by
  rw [Port.sweep_order]
  have hsplit := List.takeWhile_append_dropWhile (p := fun e : OrderEntry => e.state.isFinished) (l := q.order)
  rw [← hsplit, List.mem_append] at h
  rcases h with h | h
  · have hall := List.all_takeWhile (p := fun e : OrderEntry => e.state.isFinished) (l := q.order)
    have := List.all_eq_true.1 hall e h
    simp [hf] at this
  · exact h

/-- The entries after a change of one entry: the same requests, the named one in its new state. -/
theorem Port.mem_updEntry (q : Port) (id : Nat) (f : EntryState → EntryState) (e : OrderEntry) :
    e ∈ (q.updEntry id f).order ↔
      ∃ e0 ∈ q.order, e = if e0.acc.id = id then { e0 with state := f e0.state } else e0 := by
  simp only [Port.updEntry, List.mem_map, eq_comm]

/-- A change of one entry keeps the requests of the order list, in order. -/
@[simp] theorem Port.updEntry_accs (q : Port) (id : Nat) (f : EntryState → EntryState) :
    (q.updEntry id f).order.map (·.acc) = q.order.map (·.acc) := by
  simp only [Port.updEntry, List.map_map]
  apply List.map_congr_left
  intro e _
  simp only [Function.comp_apply]
  split <;> rfl

/-- What an accepted request adds (R103). -/
theorem Port.accept_spec (q : Port) (r : Req) :
    (q.accept r).queue = q.queue ++ [{ id := q.nextId, req := r, epoch := q.epoch }]
      ∧ (q.accept r).order = q.order ++ [{ acc := { id := q.nextId, req := r, epoch := q.epoch }, state := .pending }]
      ∧ (q.accept r).epoch = q.epoch ∧ (q.accept r).resetAsserted = q.resetAsserted ∧ (q.accept r).taken = q.taken
      ∧ (q.accept r).nextId = q.nextId + 1 := ⟨rfl, rfl, rfl, rfl, rfl, rfl⟩

/-- Departure (R106): the READY head leaves and finished heads behind it are removed; with another head nothing leaves. -/
theorem Port.depart_cases (q : Port) :
    (∃ e rest r, q.order = e :: rest ∧ e.state = .ready r ∧
        q.depart = ({ q with order := rest, taken := q.taken ++ [r] } : Port).sweep)
      ∨ ((∀ e r, q.order.head? = some e → e.state ≠ .ready r) ∧ q.depart = q) := by
  unfold Port.depart
  split
  · rename_i h; exact .inr ⟨by simp [h], rfl⟩
  · rename_i e rest h
    split
    · rename_i r hr; exact .inl ⟨e, rest, r, h, hr, rfl⟩
    · rename_i hr; exact .inr ⟨by intro e2 r2 h2; rw [h] at h2; cases h2; simp [hr], rfl⟩
    · rename_i hr; exact .inr ⟨by intro e2 r2 h2; rw [h] at h2; cases h2; simp [hr], rfl⟩

/-- The front end's part of a port reset (R108). -/
theorem Port.reset_spec (q : Port) :
    q.reset.resetAsserted = true ∧ q.reset.queue = [] ∧ q.reset.epoch = q.epoch + 1 ∧ q.reset.nextId = q.nextId
      ∧ q.reset.taken = q.taken ∧ ∀ e ∈ q.reset.order, ∃ f, e.state = .discard f := by
  refine ⟨rfl, rfl, rfl, rfl, rfl, ?_⟩
  intro e he
  have h := (List.dropWhile_sublist _).subset he
  simp only [List.mem_map] at h
  obtain ⟨e0, -, rfl⟩ := h
  cases hs : e0.state <;> simp [EntryState.reset]

end Sys2Proof.Machine
end

