-- ==== Sys2Proof/Tests/Slice0.lean ====
section
/-! SUPPORT. Tests/Slice0.lean: small tests whose expected results are the manual's worked examples and tables, and one witness of the
hypotheses of each obligation that has some. -/
namespace Sys2Proof.Tests
open Sys2Proof.Machine

-- One theorem at a time: side by side, the many short evaluations below ask for more threads than the sandbox grants.
set_option Elab.async false

/-! ### Well-formed commands -/

/-- R1: a READ carries no write data. -/
theorem test_wellFormed_refuses_read_with_data :
    Instr.wellFormed (.acceptance 0 { dir := .read, tag := 0, addr := 0, len := .single .s8, data := 1 }) = false := by decide +kernel

/-- R1: a WRITE carries the bytes of its span only: 100H is no single byte. -/
theorem test_wellFormed_refuses_data_beyond_span :
    Instr.wellFormed (.acceptance 0 { dir := .write, tag := 0, addr := 0, len := .single .s1, data := 0x100 }) = false
      ∧ Instr.wellFormed (.acceptance 0 { dir := .write, tag := 0, addr := 0, len := .single .s1, data := 0xFF }) = true := by decide +kernel

/-- R120: an ERROR response carries no bytes read. -/
theorem test_wellFormed_refuses_error_with_data : Instr.wellFormed (.memoryResponse 3 false 5) = false := by decide +kernel

/-- R20: a table entry stands on a cell address. -/
theorem test_wellFormed_refuses_lease_off_cell :
    Instr.wellFormed (.leaseExpiry 4 0x00040004) = false ∧ Instr.wellFormed (.leaseExpiry 4 0x00040008) = true := by decide +kernel

/-- R164: a byte that names a command is not BADCMD. -/
theorem test_wellFormed_refuses_badcmd_of_command :
    Instr.wellFormed (.badcmd 0x13) = false ∧ Instr.wellFormed (.badcmd 0x08) = true := by decide +kernel

/-! ### Frames of the link (11.3), byte by byte -/

theorem test_frame_status : decodeFrame [0x01] = some .status := by decide +kernel
theorem test_frame_setmask : decodeFrame [0x03, 0x40] = some (.setmask 0x40) := by decide +kernel
theorem test_frame_agent : decodeFrame [0x04, 0x06, 0x01] = some (.agent 6 1) := by decide +kernel
theorem test_frame_region : decodeFrame [0x07, 0x0F] = some (.region 15) := by decide +kernel
/-- Count 0100H stands least significant byte first. -/
theorem test_frame_captureRead : decodeFrame [0x13, 0x05, 0x00, 0x01] = some (.captureRead 5 256) := by decide +kernel
theorem test_frame_halt_resume_monitorReset :
    decodeFrame [0x21] = some .halt ∧ decodeFrame [0x22] = some .resume ∧ decodeFrame [0x20] = some .monitorReset := by decide +kernel
theorem test_frame_unknown : decodeFrame [0x23] = some (.badcmd 0x23) ∧ decodeFrame [0x00] = some (.badcmd 0) := by decide +kernel
/-- A frame cut short inside its arguments names no command. -/
theorem test_frame_cut : decodeFrame [0x04, 0x06] = none ∧ decodeFrame [] = none := by decide +kernel
/-- R162: after AGENT 6 with clear option 0, what MOSI carries while the reply is clocked is ignored, a second command byte too. -/
theorem test_frame_clocked : decodeFrame [0x04, 0x06, 0x00, 0x21, 0xFF, 0x22] = some (.agent 6 0) := by decide +kernel
/-- The setup of Example 1 of 8.8: kinds COMMIT, REFUSE, BREAK; region 0; all agents; BREAK, agent 4, cell A, count 3, LEAD. -/
theorem test_frame_captureSetup :
    decodeFrame
        [0x10, 0x07, 0x00, 0x01, 0x00, 0x00, 0xFF, 0xFF, 0x03, 0x03, 0x04, 0x00, 0x00, 0x04, 0x00, 0x03, 0x00]
      = some (.captureSetup
        { kindMask := 7, regionMask := 1, agentMask := 0xFFFF, triggerKind := 3, matchFlags := 3, agentMatch := 4
          cellMatch := 0x00040000, count := 3, position := 0 }) := by decide +kernel

/-! ### The board of Example 1 of 1.9, with region 3 of 5.6 -/

/-- The live values of the board. -/
def board : Loader :=
  { part := .running
    regions :=
      [{ base := 0x40, length := 8, kind := .guarded 200 500 3 }, { base := 0x48, length := 1, kind := .tally .saturate },
       { base := 0x50, length := 16, kind := .fenced 0xF000 }, { base := 0x49, length := 1, kind := .tally .wrap }]
    generation := 1, entitlementLimit := 2000, memoryTimeout := 1000, valid := true, pbase := 1, ownp := 0, reading := none }

/-- The board running, with nothing in flight. -/
def idle : State := { State.reset with loader := board }

/-- A READ and a WRITE of the agent with tag `t`. -/
def rd (t : Fin 4) (a : Addr) (l : Length) : Req := { dir := .read, tag := t, addr := a, len := l, data := 0 }

@[inherit_doc rd]
def wr (t : Fin 4) (a : Addr) (l : Length) (d : BitVec 512) : Req := { dir := .write, tag := t, addr := a, len := l, data := d }

/-- The state with one request accepted on a port that held none, as acceptance number 0 under the port's epoch. -/
def holdReq (s : State) (p : PortIx) (r : Req) : State :=
  let acc : Accepted := { id := 0, req := r, epoch := (s.ports.get p).epoch }
  let q : Port := { s.ports.get p with queue := [acc], order := [{ acc := acc, state := .pending }], nextId := 1 }
  { s with ports := s.ports.set p q }

/-- The grant of that request. -/
def grantOf (s : State) (p : PortIx) (r : Req) : Grant :=
  { port := p, acc := { id := 0, req := r, epoch := (s.ports.get p).epoch }, cls := s.loader.classify p r }

/-- The next state of an outcome, if it is one. -/
def nextOf (o : Host.Outcome State Fault Refusal) : Option State :=
  match o with
  | .next s => some s
  | .fault _ => none
  | .refused _ => none

/-- A value of the next state of a command. -/
def after {α : Type} (c : Instr) (s : State) (f : State → α) : Option α := (nextOf (exec c s)).map f

/-- The twelve requests of 1.9: disposition, first cell, region, mark. -/
def classOf (p : PortIx) (r : Req) : Disposition × Addr × RegionIx × Bool :=
  let c := board.classify p r
  (c.disp, c.cell, c.region, c.trigger)

theorem test_class_01 :
    classOf 0 (wr 1 0x0007FE04 (.single .s4) 0) = (.forward, 0x0007FE00, .default, true) := by decide +kernel
theorem test_class_02 :
    classOf 1 (wr 1 0x0007FE00 (.single .s8) 0) = (.answer .fenced, 0x0007FE00, .default, false) := by decide +kernel
theorem test_class_03 :
    classOf 1 (rd 0 0x00040020 (.burst 3)) = (.answer .burstInGuard, 0x00040020, .region 0, false) := by decide +kernel
theorem test_class_04 :
    classOf 2 (wr 0 0x00048006 (.single .s2) 0) = (.answer .narrowTally, 0x00048000, .region 1, false) := by decide +kernel
theorem test_class_05 :
    classOf 2 (wr 0 0x00048006 (.single .s4) 0) = (.answer .misaligned, 0x00048000, .region 1, false) := by decide +kernel
theorem test_class_06 :
    classOf 2 (wr 0 0x00048004 (.single .s4) 0) = (.tallyWrite, 0x00048000, .region 1, false) := by decide +kernel
theorem test_class_07 : classOf 3 (wr 1 0x00050040 (.burst 7) 0) = (.forward, 0x00050040, .region 2, false) := by decide +kernel
theorem test_class_08 :
    classOf 0 (wr 2 0x00050100 (.single .s8) 0) = (.answer .fenced, 0x00050100, .region 2, false) := by decide +kernel
theorem test_class_09 : classOf 2 (rd 1 0x00001030 (.burst 2)) = (.answer .misaligned, 0x00001030, .default, false) := by decide +kernel
theorem test_class_10 : classOf 0 (rd 0 0x0007FE05 (.single .s1)) = (.forward, 0x0007FE00, .default, false) := by decide +kernel
theorem test_class_11 :
    classOf 0 (wr 3 0x0007FE08 (.single .s1) 0) = (.forward, 0x0007FE08, .default, false) := by decide +kernel
theorem test_class_12 : classOf 1 (rd 2 0x00040010 (.single .s8)) = (.guardedRead, 0x00040010, .region 0, false) := by decide +kernel

theorem board_lawful : board.lawful := by unfold Loader.lawful; decide +kernel

/-- R7 at the edges of the window and of region 0, on the valid table of the board. -/
theorem witness_ClassifierDecision :
    board.lawful ∧ ([0x0000FE00, 0x0007FE00, 0x001FFE00, 0xFFFFFE00] : List Nat)[board.pbase.val]? = some 0x0007FE00
      ∧ ([0x0007FDFF, 0x0007FE00, 0x0007FFFF, 0x00080000, 0x0003FFFF, 0x00040000, 0x00047FFF, 0x00048000, 0x00048FFF] : List Nat).map
          board.areaOf
        = [.defaultSpace, .window, .window, .defaultSpace, .defaultSpace, .region 0, .region 0, .region 1, .region 1] :=
  ⟨board_lawful, by decide +kernel, by decide +kernel⟩

/-- R17, R128: the policy base and the granule of the policy base that each PBASE selects. -/
theorem test_pbase_table :
    ([0, 1, 2, 3] : List (Fin 4)).map (fun p => ((Config.policyBase p).toNat, ({ board with pbase := p }).policyGranule))
      = [(0x0000FE00, 0x0F), (0x0007FE00, 0x7F), (0x001FFE00, 0x1FF), (0xFFFFFE00, 0xFFFFF)] := by decide +kernel

/-- R2, R3, R12: port 2's tag 1 is agent 9; a single lies in one cell, a burst of four beats in four, the first at its address. -/
theorem test_classify_hands_over :
    ([rd 1 0x00048004 (.single .s4), rd 1 0x00048020 (.burst 3)] : List Req).map (fun r =>
        ((board.classify 2 r).agent, (board.classify 2 r).cell, (board.classify 2 r).cells))
      = [(9, 0x00048000, 1), (9, 0x00048020, 4)] := by decide +kernel

/-! ### Tallies (5.6) -/

/-- Agent 8's tally on the upper half of T, as step 2 of 5.6 has it, with the given addend, on slot 0. -/
def tallyT (addend : BitVec 64) : Tally :=
  { phase := .reading, agent := 8, cell := 0x00048000, region := 1, offset := 4, width := .w4, addend := addend
    mode := .saturate, epoch := 0, tag := some 0, id := 0 }

/-- Agent 6's tally on W. -/
def tallyW (addend : BitVec 64) : Tally :=
  { phase := .reading, agent := 6, cell := 0x00049000, region := 3, offset := 0, width := .w8, addend := addend
    mode := .wrap, epoch := 0, tag := some 0, id := 0 }

theorem test_tally_clamps_high : (tallyT 0x20).form (leBytes 4 0x7FFFFFF0) = (0x7FFFFFFF, true) := by decide +kernel
theorem test_tally_minus_two : (tallyT 0xFFFFFFFE).form (leBytes 4 0x7FFFFFFF) = (0x7FFFFFFD, false) := by decide +kernel
theorem test_tally_clamps_low : (tallyT 0xFFFFFFF0).form (leBytes 4 0x80000005) = (0x80000000, true) := by decide +kernel
theorem test_tally_wraps : (tallyW 5).form (leBytes 8 0xFFFFFFFFFFFFFFFE) = (3, false) := by decide +kernel
/-- R89: an addend of FFFFFFFFH lowers a count of 0 to FFFFFFFFH at width 4 in WRAP mode. -/
theorem test_tally_wrap_w4 :
    ({ tallyT 0xFFFFFFFF with mode := .wrap } : Tally).form (leBytes 4 0) = (0xFFFFFFFF, false) := by decide +kernel

/-! ### The policy block (7.7) -/

/-- The words of the block of 7.7. -/
def blockBytes (check generation w3 : Nat) : List Byte :=
  [0x574C3432, generation, check, 0x00000003, 0x03E807D0, 0,
   0x40, 8, w3, 0x01F400C8, 0, 0,
   0x48, 1, 0x102, 0, 0, 0,
   0x50, 0x10, 3, 0, 0xF000, 0].flatMap (leBytes 4)

theorem test_block_valid :
    (validBlock 0x7F (blockBytes 0xA2D3D13B 1 0x00030001)).map (fun b => (b.regions, b.entitlementLimit, b.memoryTimeout))
      = some (board.regions.take 3, 2000, 1000) := by decide +kernel

theorem test_block_new_check_word :
    (validBlock 0x7F (blockBytes 0xA2D4D13A 2 0x00020001)).map (·.generation) = some 2
      ∧ validBlock 0x7F (blockBytes 0xA2D3D13B 2 0x00020001) = none := by decide +kernel

/-! ### Records (11.4) -/

theorem test_presence_flags :
    (Record.ofRelease 3 none .expired).presence = 0x05 ∧ (Record.ofControl (some 8) .portReset).presence = 0x09
      ∧ (Record.ofRelease 0 (some (0x00040000, .region 0)) .none).presence = 0x07 := by decide +kernel

/-- A PORT_RESET record of port 2: agent 8, control code 6, no cell. -/
theorem test_record_bytes :
    RingRecord.bytes { seq := 1, time := 0x0102, record := .ofControl (some 8) .portReset }
      = [1, 0, 0, 0, 2, 1, 0, 0, 12, 9, 8, 0, 0, 6, 0, 0, 0, 0] := by decide +kernel

/-! ### Witnesses: the queue, resets and ports -/

theorem witness_StepTakesFrontCommand : ({ idle with pending := [.halt, .resume] } : State).pending = .halt :: [.resume] := by
  decide +kernel

/-- Agent contexts given one by one. -/
def contexts (f : Agent → AgentCtx) : Four (Four AgentCtx) :=
  let bank (p : Fin 4) : Four AgentCtx :=
    { e0 := f (agentOf p 0), e1 := f (agentOf p 1), e2 := f (agentOf p 2), e3 := f (agentOf p 3) }
  { e0 := bank 0, e1 := bank 1, e2 := bank 2, e3 := bank 3 }

/-- The slots and the wait list of Example 2 of 4.7 after step 2, with `n0` and `n1` remaining in slots 0 and 1; agent 4 has an entry
on C, which agent 9 holds, and agent 6 a loss entry for A. -/
def fullSlots (n0 n1 : Nat) : Monitor :=
  { table := [{ agent := 4, cell := 0x00040010, region := 0, lease := 190 }]
    slots :=
      { e0 := .entitled 1 n0, e1 := .holding 5 0x00040008 0 n1, e2 := .holding 9 0x00040010 0 300, e3 := .entitled 14 1500 }
    waitList := [6, 11]
    ctxs := contexts fun a =>
      { AgentCtx.powerOn with
        state :=
          if a = 1 ∨ a = 14 then .entitled else if a = 5 ∨ a = 9 then .holding
          else if a = 6 ∨ a = 11 then .waiting else .normal
        loss := if a = 6 then [{ cell := 0x00040000, cause := .broken }] else [] } }

/-- The board with those slots. -/
def full (n0 n1 : Nat) : State := { idle with monitor := fullSlots n0 n1 }

theorem fullSlots_lawful : (fullSlots 800 40).lawful := by rw [Monitor.lawful_iff]; decide +kernel
theorem fullSlots_noneRunOut : (fullSlots 800 40).noneRunOut := by unfold Monitor.noneRunOut; decide +kernel

/-- A port with an answered request, one in memory and one in the queue. -/
def busyPort : Port :=
  { queue := [{ id := 9, req := rd 0 0x1000 (.single .s8), epoch := 7 }]
    order :=
      [{ acc := { id := 7, req := rd 1 0x1000 (.single .s8), epoch := 7 }, state := .ready { cause := .held, data := [] } },
       { acc := { id := 8, req := rd 2 0x1000 (.single .s8), epoch := 7 }, state := .pending },
       { acc := { id := 9, req := rd 0 0x1000 (.single .s8), epoch := 7 }, state := .pending }]
    epoch := 7, resetAsserted := false, nextId := 10, taken := [] }

/-- The board with that port 2. -/
def busy : State := { full 800 40 with ports := idle.ports.set 2 busyPort }

theorem witness_PortResetFrontEnd :
    (busy.ports.get 2).resetAsserted = false
      ∧ (busy.ports.get 2).order
          = [{ acc := { id := 7, req := rd 1 0x1000 (.single .s8), epoch := 7 }, state := .ready { cause := .held, data := [] } },
             { acc := { id := 8, req := rd 2 0x1000 (.single .s8), epoch := 7 }, state := .pending }]
            ++ (busy.ports.get 2).queue.map (fun acc => { acc := acc, state := .pending })
      ∧ (busy.ports.get 2).inOrder := by
  unfold Port.inOrder; decide +kernel

/-- R107, R108: the answered entry leaves at once, the one in memory stays as DISCARD, the queue is empty and the epoch 8. -/
theorem test_portReset_front_end :
    after (.portReset 2) busy (fun t => ((t.ports.get 2).queue, (t.ports.get 2).epoch, (t.ports.get 2).order.map (·.state)))
      = some ([], 8, [.discard false]) := by decide +kernel

theorem witness_PortResetMonitor :
    (busy.ports.get 2).resetAsserted = false ∧ busy.monitor.lawful
      ∧ [6] = busy.monitor.waitList.filter (fun a => portOf a != 2)
      ∧ [2] = ([0, 1, 2, 3] : List SlotIx).filter (fun i => (busy.monitor.slots.get i).agent?.any (fun a => portOf a == 2)) := by
  refine ⟨by decide +kernel, fullSlots_lawful, by decide +kernel, by decide +kernel⟩

theorem witness_ResetLineHeldAndReleased :
    (({ idle with ports := idle.ports.set 3 { idle.ports.get 3 with resetAsserted := true } } : State).ports.get 3).resetAsserted
      = true := by decide +kernel

theorem witness_AcceptanceAndDeparture_leaves :
    ∃ e rest r, (busy.ports.get 2).order = e :: rest ∧ e.state = .ready r := ⟨_, _, _, rfl, rfl⟩

/-- A port whose head waits for memory. -/
def waitingPort : Port :=
  { busyPort with
    queue := [], order := [{ acc := { id := 8, req := rd 2 0x1000 (.single .s8), epoch := 7 }, state := .pending }] }

theorem witness_AcceptanceAndDeparture_stays :
    ∀ e r, waitingPort.order.head? = some e → e.state ≠ .ready r := by
  intro e r h
  cases h
  simp

/-- A port with `n` entries. -/
def crowdedPort (n : Nat) : Port :=
  { Port.powerOn with
    order := List.replicate n { acc := { id := 0, req := rd 0 0 (.single .s1), epoch := 0 }, state := .pending } }

/-- R103 at the edge: with 7 entries the eighth request is accepted, with 8 entries the ninth is not. -/
theorem test_window_edge :
    ([7, 8] : List Nat).map (fun n =>
        after (.acceptance 0 (rd 0 0 (.single .s1))) ({ idle with ports := idle.ports.set 0 (crowdedPort n) } : State)
          (fun t => (t.ports.get 0).order.length))
      = [some 8, some 8] := by decide +kernel

theorem witness_ReadyResponseIsFinal :
    ∃ t e r, exec (.responseDeparture 0) busy = .next t ∧ e ∈ (busy.ports.get 2).order ∧ e.state = .ready r :=
  ⟨_, _, _, rfl, List.mem_cons_self .., rfl⟩

/-- One request in a queue. -/
def queued : State := { holdReq idle 1 (rd 2 0x00040010 (.single .s8)) with pending := [.timeBaseTick] }

theorem queued_order (p : PortIx) (h : p ≠ 1) : (queued.ports.get p).order = [] := by revert p; decide +kernel

theorem queued_responsesLawful : queued.responsesLawful := by
  have hw : queued.workRefs = [] := by decide +kernel
  refine ⟨?_, by simp [hw], ?_, ?_⟩
  · intro p
    unfold Port.lawful Port.inOrder
    refine ⟨by revert p; decide +kernel, by revert p; decide +kernel, ⟨[], ?_⟩, ?_, ?_⟩
    · revert p; decide +kernel
    · intro e he
      match p with
      | 0 => cases he
      | 1 => cases he; rfl
      | 2 => cases he
      | 3 => cases he
    · revert p; decide +kernel
  · intro p id
    rw [hw]
    simp only [List.not_mem_nil, false_iff, not_exists, not_and]
    intro e he hid _ hq
    match p with
    | 0 => cases he
    | 1 =>
      simp only [queued, holdReq, Four.get_set_self, List.mem_singleton, forall_eq] at he hq
      subst he
      exact hq hid
    | 2 => cases he
    | 3 => cases he
  · intro i t h
    match i with
    | 0 => cases h
    | 1 => cases h
    | 2 => cases h
    | 3 => cases h

theorem witness_ResponsesLawKept : ∃ t, queued.responsesLawful ∧ step queued = .next t := ⟨_, queued_responsesLawful, rfl⟩

theorem witness_frame_may_begin : idle.link.frame ≠ .awaitRise := by decide +kernel

theorem witness_PauseStopsAdmission :
    ({ idle with link := { idle.link with pause := true } } : State).link.pause = true
      ∧ State.reset.loader.part ≠ .running := by decide +kernel

/-- The same with the pointer past the port, so that the search comes to it last. -/
def queuedLast : State := { queued with pointer := 2 }

theorem witness_GrantGoesRoundRobin :
    queuedLast.candidate (queuedLast.pointer + 3) = some (grantOf idle 1 (rd 2 0x00040010 (.single .s8)))
      ∧ ∀ j, j < 3 → queuedLast.candidate (queuedLast.pointer + j) = none := by decide +kernel

theorem witness_GrantGoesRoundRobin_none : ∀ p, idle.candidate p = none := by decide +kernel

theorem witness_WaitingPortIsServed :
    queued.candidate 1 = some (grantOf idle 1 (rd 2 0x00040010 (.single .s8))) := by decide +kernel

/-! ### Witnesses: admission -/

theorem witness_AnswerAdmitted :
    (holdReq idle 1 (wr 1 0x0007FE00 (.single .s8) 0)).winner = some (grantOf idle 1 (wr 1 0x0007FE00 (.single .s8) 0))
      ∧ (grantOf idle 1 (wr 1 0x0007FE00 (.single .s8) 0)).cls.disp = .answer .fenced
      ∧ (holdReq idle 2 (rd 1 0x00001030 (.burst 2))).winner = some (grantOf idle 2 (rd 1 0x00001030 (.burst 2)))
      ∧ (grantOf idle 2 (rd 1 0x00001030 (.burst 2))).cls.disp = .answer .misaligned := by decide +kernel

/-- Row 2 of the second table of 1.9: verdict FENCED, refusals + 1, the entry READY, nothing issued. -/
theorem test_answer_fenced :
    after .admission (holdReq idle 1 (wr 1 0x0007FE00 (.single .s8) 0))
        (fun t => (t.monitor.ctx 5, (t.ports.get 1).order.map (·.state), t.memory.issued))
      = some ({ AgentCtx.powerOn with verdict := .fenced, refusals := 1 }, [.ready { cause := .fenced, data := [] }], []) := by
  decide +kernel

theorem witness_ForwardAdmitted :
    (holdReq idle 0 (wr 1 0x0007FE04 (.single .s4) 2)).winner = some (grantOf idle 0 (wr 1 0x0007FE04 (.single .s4) 2))
      ∧ (grantOf idle 0 (wr 1 0x0007FE04 (.single .s4) 2)).cls.disp = .forward
      ∧ (holdReq idle 0 (rd 2 0x00048004 (.single .s4))).winner = some (grantOf idle 0 (rd 2 0x00048004 (.single .s4)))
      ∧ (grantOf idle 0 (rd 2 0x00048004 (.single .s4))).cls.disp = .tallyRead ∧ idle.tally.waiting = [] := by decide +kernel

/-- Agent 8's tally of 5.6 after step 6: its write half waits to issue. -/
def tallyWaits : State :=
  { idle with
    tally :=
      { slots :=
          { e0 := some { tallyT 0x20 with phase := .writing 0x7FFFFFFF true, tag := none }, e1 := none, e2 := none, e3 := none }
        waiting := [0] }
    memory :=
      { outstanding := [], nextTag := 1, timer := none
        issued := [{ tag := 0, dir := .read, addr := 0x00048004, len := .single .s4, data := [] }] } }

theorem tallyWaits_lawful : tallyWaits.tally.lawful := by
  refine ⟨?_, by decide +kernel, ?_⟩
  · intro i j t u hi hj _
    match i with
    | 0 =>
      match j with
      | 0 => rfl
      | 1 => cases hj
      | 2 => cases hj
      | 3 => cases hj
    | 1 => cases hi
    | 2 => cases hi
    | 3 => cases hi
  · intro i
    match i with
    | 0 => exact ⟨fun _ => ⟨_, rfl, rfl⟩, fun _ => by decide +kernel⟩
    | 1 => exact ⟨fun h => absurd h (by decide +kernel), fun ⟨_, h, _⟩ => by cases h⟩
    | 2 => exact ⟨fun h => absurd h (by decide +kernel), fun ⟨_, h, _⟩ => by cases h⟩
    | 3 => exact ⟨fun h => absurd h (by decide +kernel), fun ⟨_, h, _⟩ => by cases h⟩

/-- A request of each disposition that issues, with the write half of 5.6 waiting. -/
theorem witness_WriteHalvesIssueFirst :
    (holdReq tallyWaits 3 (rd 0 0x1000 (.single .s8))).winner = some (grantOf idle 3 (rd 0 0x1000 (.single .s8)))
      ∧ (grantOf idle 3 (rd 0 0x1000 (.single .s8))).cls.disp = .forward
      ∧ (holdReq tallyWaits 0 (rd 2 0x00048008 (.single .s4))).winner = some (grantOf idle 0 (rd 2 0x00048008 (.single .s4)))
      ∧ (grantOf idle 0 (rd 2 0x00048008 (.single .s4))).cls.disp = .tallyRead
      ∧ (holdReq tallyWaits 1 (wr 2 0x00049000 (.single .s8) 5)).winner = some (grantOf idle 1 (wr 2 0x00049000 (.single .s8) 5))
      ∧ (grantOf idle 1 (wr 2 0x00049000 (.single .s8) 5)).cls.disp = .tallyWrite
      ∧ (holdReq tallyWaits 2 (rd 2 0x00040020 (.single .s8))).winner = some (grantOf idle 2 (rd 2 0x00040020 (.single .s8)))
      ∧ (grantOf idle 2 (rd 2 0x00040020 (.single .s8))).cls.disp = .guardedRead
      ∧ (holdReq tallyWaits 3 (rd 0 0x1000 (.single .s8))).tally.lawful := by
  refine ⟨by decide +kernel, by decide +kernel, by decide +kernel, by decide +kernel, by decide +kernel, by decide +kernel,
    by decide +kernel, by decide +kernel, tallyWaits_lawful⟩

/-- R91, R119: the write half of 5.6 (7FFFFFFFH at 00048004H) goes ahead of the admitted read. -/
theorem test_write_half_first :
    after .admission (holdReq tallyWaits 3 (rd 0 0x1000 (.single .s8))) (fun t => t.memory.issued.tail)
      = some
        [{ tag := 1, dir := .write, addr := 0x00048004, len := .single .s4, data := [0xFF, 0xFF, 0xFF, 0x7F] },
         { tag := 2, dir := .read, addr := 0x1000, len := .single .s8, data := [] }] := by decide +kernel

/-- Example 1 of 4.7 at 5030: agent 13 ENTITLED in slot 0, agent 4 with an entry on A. -/
def entitled13 : State :=
  { idle with
    monitor :=
      { table := [{ agent := 4, cell := 0x00040000, region := 0, lease := 190 }]
        slots := { e0 := .entitled 13 1980, e1 := .free, e2 := .free, e3 := .free }
        waitList := []
        ctxs := contexts fun a => { AgentCtx.powerOn with state := if a = 13 then .entitled else .normal } } }

/-- The same at 5100: agent 13 HOLDING A. -/
def holding13 : State :=
  { idle with
    monitor :=
      { table := [{ agent := 4, cell := 0x00040000, region := 0, lease := 120 }]
        slots := { e0 := .holding 13 0x00040000 0 430, e1 := .free, e2 := .free, e3 := .free }
        waitList := []
        ctxs := contexts fun a => { AgentCtx.powerOn with state := if a = 13 then .holding else .normal } } }

theorem entitled13_lawful : entitled13.monitor.lawful := by rw [Monitor.lawful_iff]; decide +kernel
theorem holding13_lawful : holding13.monitor.lawful := by rw [Monitor.lawful_iff]; decide +kernel
theorem noneRunOut_13 : entitled13.monitor.noneRunOut ∧ holding13.monitor.noneRunOut := by
  unfold Monitor.noneRunOut; decide +kernel

theorem witness_GuardedReadConverts :
    (holdReq entitled13 3 (rd 1 0x00040000 (.single .s8))).winner = some (grantOf idle 3 (rd 1 0x00040000 (.single .s8)))
      ∧ (grantOf idle 3 (rd 1 0x00040000 (.single .s8))).cls.disp = .guardedRead
      ∧ (grantOf idle 3 (rd 1 0x00040000 (.single .s8))).cls.region = .region 0
      ∧ (grantOf idle 3 (rd 1 0x00040000 (.single .s8))).cls.kind = .guarded 200 500 3
      ∧ entitled13.monitor.slotsLawful ∧ entitled13.monitor.noneRunOut
      ∧ entitled13.monitor.slots.get 0 = .entitled (grantOf idle 3 (rd 1 0x00040000 (.single .s8))).cls.agent 1980
      ∧ ∀ j b r k, entitled13.monitor.slots.get j ≠ .holding b 0x00040000 r k := by
  refine ⟨by decide +kernel, by decide +kernel, by decide +kernel, by decide +kernel, entitled13_lawful.2.2.1,
    noneRunOut_13.1, by decide +kernel, ?_⟩
  rw [Monitor.not_held_iff]
  decide +kernel

/-- Example 1 of 4.7, 5030: the slot is HOLDING A with the hold limit 500, and agent 4's entry stays. -/
theorem test_conversion :
    after .admission (holdReq entitled13 3 (rd 1 0x00040000 (.single .s8)))
        (fun t => (t.monitor.slots.get 0, (t.monitor.ctx 13).state, t.monitor.table))
      = some (.holding 13 0x00040000 0 500, .holding, [{ agent := 4, cell := 0x00040000, region := 0, lease := 190 }]) := by
  decide +kernel

/-- Case 2 of R23: the holder reads its cell again. -/
theorem witness_GuardedReadKeeps :
    (holdReq holding13 3 (rd 1 0x00040000 (.single .s8))).winner = some (grantOf idle 3 (rd 1 0x00040000 (.single .s8)))
      ∧ holding13.monitor.lawful ∧ holding13.monitor.noneRunOut
      ∧ holding13.monitor.slots.get 0 = .holding 13 0x00040000 0 430 :=
  ⟨by decide +kernel, holding13_lawful, noneRunOut_13.2, by decide +kernel⟩

/-- Case 3 of R23, by an agent that is not ENTITLED, and by an ENTITLED one of a cell that another holds. -/
theorem witness_GuardedReadRefreshes :
    (holdReq holding13 1 (rd 0 0x00040000 (.single .s8))).winner = some (grantOf idle 1 (rd 0 0x00040000 (.single .s8)))
      ∧ (grantOf idle 1 (rd 0 0x00040000 (.single .s8))).cls.disp = .guardedRead
      ∧ (grantOf idle 1 (rd 0 0x00040000 (.single .s8))).cls.region = .region 0
      ∧ (grantOf idle 1 (rd 0 0x00040000 (.single .s8))).cls.kind = .guarded 200 500 3
      ∧ holding13.monitor.lawful ∧ holding13.monitor.noneRunOut
      ∧ { agent := 4, cell := 0x00040000, region := 0, lease := 120 } ∈ holding13.monitor.table
      ∧ (∀ i n, holding13.monitor.slots.get i ≠ .entitled 4 n)
      ∧ ∃ i b r n, holding13.monitor.slots.get i = .holding b 0x00040000 r n := by
  refine ⟨by decide +kernel, by decide +kernel, by decide +kernel, by decide +kernel, holding13_lawful, noneRunOut_13.2,
    by decide +kernel, ?_, ⟨0, _, _, _, rfl⟩⟩
  rw [Monitor.not_entitled_iff]
  decide +kernel

/-- Row 1100 of Example 1 of 2.7: agent 6 refreshes B, which goes behind agent 9's entry. -/
theorem test_refresh :
    ((({ idle.monitor with
        table :=
          [{ agent := 6, cell := 0x00040008, region := 0, lease := 130 }, { agent := 9, cell := 0x00040000, region := 0, lease := 150 }] }
      : Monitor).guardedRead 6 0x00040008 0 200 500).monitor.table.map (fun e => (e.agent, e.lease)))
      = [(9, 150), (6, 200)] := by decide +kernel

/-- A full table: 24 entries, four for each of agents 0 to 5. -/
def fullTable : State :=
  { idle with
    monitor := { idle.monitor with
      table := (List.range 24).map fun k =>
        { agent := ⟨k / 4 % 16, by omega⟩, cell := 0x00040000 + BitVec.ofNat 32 (8 * k), region := 0, lease := 10 + k } } }

theorem fullTable_lawful : fullTable.monitor.lawful := by rw [Monitor.lawful_iff]; decide +kernel
theorem fullTable_noneRunOut : idle.monitor.noneRunOut ∧ fullTable.monitor.noneRunOut := by unfold Monitor.noneRunOut; decide +kernel

/-- Case 4 of R23: without displacement, with eviction (Example 2 of 2.7) and with displacement. -/
theorem witness_GuardedReadCreates :
    (holdReq idle 2 (rd 2 0x00040020 (.single .s8))).winner = some (grantOf idle 2 (rd 2 0x00040020 (.single .s8)))
      ∧ (holdReq fullTable 2 (rd 2 0x00047FF8 (.single .s8))).winner = some (grantOf idle 2 (rd 2 0x00047FF8 (.single .s8)))
      ∧ (holdReq fullTable 0 (rd 3 0x00047FF8 (.single .s8))).winner = some (grantOf idle 0 (rd 3 0x00047FF8 (.single .s8)))
      ∧ idle.monitor.lawful ∧ fullTable.monitor.lawful ∧ idle.monitor.noneRunOut ∧ fullTable.monitor.noneRunOut
      ∧ (∀ e ∈ fullTable.monitor.table, e.cell ≠ 0x00047FF8)
      ∧ (∀ i r n, fullTable.monitor.slots.get i ≠ .holding 10 0x00047FF8 r n)
      ∧ (∀ i n, fullTable.monitor.slots.get i ≠ .entitled 10 n)
      ∧ (fullTable.monitor.table.filter (fun e => e.agent == 3)).length = 4
      ∧ (fullTable.monitor.table.filter (fun e => e.agent == 10)).length = 0 ∧ fullTable.monitor.table.length = 24 := by
  refine ⟨by decide +kernel, by decide +kernel, by decide +kernel, ?_, fullTable_lawful, fullTable_noneRunOut.1,
    fullTable_noneRunOut.2, by decide +kernel, ?_, ?_,
    by decide +kernel, by decide +kernel, by decide +kernel⟩
  · rw [Monitor.lawful_iff]; decide +kernel
  · rw [Monitor.not_holding_iff]; decide +kernel
  · rw [Monitor.not_entitled_iff]; decide +kernel

/-- Example 2 of 2.7: the oldest entry is evicted, its agent told EVICTED, the flag set, the table full again. -/
theorem test_eviction :
    after .admission (holdReq fullTable 2 (rd 2 0x00047FF8 (.single .s8)))
        (fun t => ((t.monitor.ctx 0).loss, t.monitor.table.length, t.attention.flags))
      = some ([{ cell := 0x00040000, cause := .evicted }], 24, 0x80) := by decide +kernel

theorem witness_GuardedWriteJudged : holding13.monitor.lawful ∧ (fullSlots 800 40).lawful := ⟨holding13_lawful, fullSlots_lawful⟩

/-- The five cases of R43, in order. -/
theorem test_five_cases :
    holding13.monitor.judge 4 0x00040000 = .heldByOther ∧ holding13.monitor.judge 13 0x00040000 = .byHold 0
      ∧ entitled13.monitor.judge 4 0x00040000 = .byEntry ∧ (fullSlots 800 40).judge 6 0x00040000 = .lost .broken
      ∧ entitled13.monitor.judge 13 0x00040000 = .noReservation := by decide +kernel

/-- Example 1 of 3.8 before step 4: agents 4, 8 and 13 have entries on A; agent 9 has a streak and no reservation. -/
def threeReaders (streak : Nat) : State :=
  { idle with
    monitor := { idle.monitor with
      table :=
        [{ agent := 4, cell := 0x00040000, region := 0, lease := 180 }, { agent := 8, cell := 0x00040000, region := 0, lease := 190 },
         { agent := 13, cell := 0x00040000, region := 0, lease := 200 }]
      ctxs := contexts fun a => { AgentCtx.powerOn with streak := if a = 9 then streak else 0 } } }

theorem witness_WriteByReservationCommits :
    (holdReq (threeReaders 0) 2 (wr 0 0x00040000 (.single .s8) 5)).winner
        = some (grantOf idle 2 (wr 0 0x00040000 (.single .s8) 5))
      ∧ (grantOf idle 2 (wr 0 0x00040000 (.single .s8) 5)).cls.disp = .guardedWrite
      ∧ (threeReaders 0).monitor.noneRunOut ∧ (threeReaders 0).monitor.judge 8 0x00040000 = .byEntry := by
  unfold Monitor.noneRunOut; decide +kernel

/-- Example 1 of 3.8, step 4: 4 and 13 are broken, 8's commits counter rises. -/
theorem test_commit_breaks :
    after .admission (holdReq (threeReaders 0) 2 (wr 0 0x00040000 (.single .s8) 5))
        (fun t => (t.monitor.table, (t.monitor.ctx 4).loss, (t.monitor.ctx 13).loss, (t.monitor.ctx 8).commits))
      = some ([], [{ cell := 0x00040000, cause := .broken }], [{ cell := 0x00040000, cause := .broken }], 1) := by
  decide +kernel

/-- The same write with the write half of 5.6 waiting: a commit that issues behind it. -/
theorem witness_WriteHalvesIssueFirst_commit :
    (holdReq { threeReaders 0 with tally := tallyWaits.tally } 2 (wr 0 0x00040000 (.single .s8) 5)).winner
        = some (grantOf idle 2 (wr 0 0x00040000 (.single .s8) 5))
      ∧ (grantOf idle 2 (wr 0 0x00040000 (.single .s8) 5)).cls.disp = .guardedWrite
      ∧ (threeReaders 0).monitor.noneRunOut ∧ (threeReaders 0).monitor.judge 8 0x00040000 = .byEntry := by
  unfold Monitor.noneRunOut; decide +kernel

theorem witness_WriteByHoldCommits :
    (holdReq holding13 3 (wr 1 0x00040000 (.single .s8) 5)).winner
        = some (grantOf idle 3 (wr 1 0x00040000 (.single .s8) 5))
      ∧ (grantOf idle 3 (wr 1 0x00040000 (.single .s8) 5)).cls.disp = .guardedWrite
      ∧ holding13.monitor.lawful ∧ holding13.monitor.noneRunOut
      ∧ holding13.monitor.slots.get 0 = .holding 13 0x00040000 0 430 :=
  ⟨by decide +kernel, by decide +kernel, holding13_lawful, noneRunOut_13.2, by decide +kernel⟩

/-- Example 1 of 4.7, 5100: the slot is FREE, agent 13 NORMAL, agent 4's entry broken. -/
theorem test_commit_by_hold :
    after .admission (holdReq holding13 3 (wr 1 0x00040000 (.single .s8) 5))
        (fun t => (t.monitor.slots.get 0, (t.monitor.ctx 13).state, t.monitor.table, (t.monitor.ctx 4).loss))
      = some (.free, .normal, [], [{ cell := 0x00040000, cause := .broken }]) := by decide +kernel

/-- A refusal for each alternative: HELD; a lost cell of a WAITING agent; NO_RESERVATION below the threshold 3; a lost cell of cause
DROPPED raises no streak. -/
theorem witness_WriteRefused :
    (holdReq holding13 1 (wr 0 0x00040000 (.single .s8) 5)).winner
        = some (grantOf idle 1 (wr 0 0x00040000 (.single .s8) 5))
      ∧ (grantOf idle 1 (wr 0 0x00040000 (.single .s8) 5)).cls.disp = .guardedWrite
      ∧ (grantOf idle 1 (wr 0 0x00040000 (.single .s8) 5)).cls.kind = .guarded 200 500 3
      ∧ holding13.monitor.judge 4 0x00040000 = .heldByOther
      ∧ (holdReq (full 800 40) 1 (wr 2 0x00040000 (.single .s8) 5)).winner
        = some (grantOf idle 1 (wr 2 0x00040000 (.single .s8) 5))
      ∧ (full 800 40).monitor.judge 6 0x00040000 = .lost .broken ∧ ((full 800 40).monitor.ctx 6).state ≠ .normal
      ∧ (holdReq (threeReaders 1) 2 (wr 1 0x00040000 (.single .s8) 5)).winner
        = some (grantOf idle 2 (wr 1 0x00040000 (.single .s8) 5))
      ∧ (threeReaders 1).monitor.judge 9 0x00040000 = .noReservation ∧ ((threeReaders 1).monitor.ctx 9).streak + 1 < 3
      ∧ holding13.monitor.noneRunOut ∧ (full 800 40).monitor.noneRunOut ∧ (threeReaders 1).monitor.noneRunOut := by
  unfold Monitor.noneRunOut; decide +kernel

/-- The four slots in use, and agent 2 one refusal below the threshold. -/
def crowd : State :=
  { full 800 40 with monitor := (fullSlots 800 40).updCtx 2 fun x => { x with streak := 2 } }

/-- An escalation with a FREE slot, at the threshold and at the top of the streak, and one with none. -/
theorem witness_EscalationPlacesAgent :
    (holdReq (threeReaders 2) 2 (wr 1 0x00040000 (.single .s8) 5)).winner
        = some (grantOf idle 2 (wr 1 0x00040000 (.single .s8) 5))
      ∧ (grantOf idle 2 (wr 1 0x00040000 (.single .s8) 5)).cls.disp = .guardedWrite
      ∧ (grantOf idle 2 (wr 1 0x00040000 (.single .s8) 5)).cls.kind = .guarded 200 500 3
      ∧ (threeReaders 2).monitor.judge 9 0x00040000 = .noReservation ∧ ((threeReaders 2).monitor.ctx 9).state = .normal
      ∧ 3 ≤ ((threeReaders 2).monitor.ctx 9).streak + 1 ∧ 3 ≤ ((threeReaders 15).monitor.ctx 9).streak
      ∧ (threeReaders 2).monitor.slots.get 0 = .free
      ∧ (holdReq crowd 0 (wr 2 0x00040000 (.single .s8) 5)).winner
        = some (grantOf idle 0 (wr 2 0x00040000 (.single .s8) 5))
      ∧ crowd.monitor.judge 2 0x00040000 = .noReservation ∧ (crowd.monitor.ctx 2).state = .normal
      ∧ (crowd.monitor.ctx 2).streak = 2 ∧ (∀ i, crowd.monitor.slots.get i ≠ .free)
      ∧ (threeReaders 2).monitor.noneRunOut ∧ (threeReaders 15).monitor.noneRunOut ∧ crowd.monitor.noneRunOut := by
  unfold Monitor.noneRunOut; decide +kernel

/-- Example 1 of 4.7, 5010: the third refusal escalates agent 9 (there 13) to slot 0 with the limit 2000 and streak 0. -/
theorem test_escalation :
    after .admission (holdReq (threeReaders 2) 2 (wr 1 0x00040000 (.single .s8) 5))
        (fun t => (t.monitor.slots.get 0, (t.monitor.ctx 9).state, (t.monitor.ctx 9).streak))
      = some (.entitled 9 2000, .entitled, 0) := by decide +kernel

theorem witness_TallyWriteTaken :
    (holdReq idle 2 (wr 0 0x00048004 (.single .s4) 0x20)).winner
        = some (grantOf idle 2 (wr 0 0x00048004 (.single .s4) 0x20))
      ∧ (grantOf idle 2 (wr 0 0x00048004 (.single .s4) 0x20)).cls.disp = .tallyWrite
      ∧ (grantOf idle 2 (wr 0 0x00048004 (.single .s4) 0x20)).cls.region = .region 1
      ∧ (grantOf idle 2 (wr 0 0x00048004 (.single .s4) 0x20)).cls.kind = .tally .saturate
      ∧ (holdReq idle 1 (wr 2 0x00049000 (.single .s8) 5)).winner
        = some (grantOf idle 1 (wr 2 0x00049000 (.single .s8) 5))
      ∧ (grantOf idle 1 (wr 2 0x00049000 (.single .s8) 5)).cls.kind = .tally .wrap ∧ idle.tally.waiting = [] := by
  decide +kernel

/-- Step 2 of Example 1 of 5.6: READING(8, T, 4, 4), and the read half at the request's own address. -/
theorem test_tally_taken :
    after .admission (holdReq idle 2 (wr 0 0x00048004 (.single .s4) 0x20)) (fun t => (t.tally.slots.get 0, t.memory.issued))
      = some (some (tallyT 0x20), [{ tag := 0, dir := .read, addr := 0x00048004, len := .single .s4, data := [] }]) := by
  decide +kernel

/-! ### Witnesses: the memory port and the tallies -/

/-- An outstanding entry of agent `a`'s request number 8 in default space. -/
def outReq (r : Req) (a : Agent) (d : Disposition) (trigger : Bool) : OutEntry :=
  { tx := { tag := 3, dir := r.dir, addr := r.addr, len := r.len, data := r.payload }
    origin := .agentRequest { agent := a, epoch := 7, cell := cellOf r.addr, region := .default } 8 d trigger }

/-- The board with these entries outstanding and the timer at `timer`. Port 2 waits for request 8. -/
def outstanding (es : List OutEntry) (timer : Option Nat) : State :=
  { idle with
    ports := idle.ports.set 2 waitingPort
    memory := { outstanding := es, nextTag := 3 + BitVec.ofNat 5 es.length, timer := timer, issued := [] } }

/-- A forwarded write of agent 9. -/
def outWrite : OutEntry := outReq (wr 1 0x1000 (.single .s4) 5) 9 .forward false

theorem witness_RequestCompletesOkay :
    (outstanding [outWrite] (some 4)).memory.outstanding = outWrite :: []
      ∧ outWrite.origin = .agentRequest { agent := 9, epoch := 7, cell := 0x1000, region := .default } 8 .forward false := by
  decide +kernel

/-- The functions of R105 on an entry's state, and the response of an answer. -/
theorem witness_RequestCompletesOkay_list :
    (EntryState.pending.complete { cause := .held, data := [] } = .ready { cause := .held, data := [] })
      ∧ (∀ b, (EntryState.discard b).complete { cause := .held, data := [] } = .discard true)
      ∧ EntryState.pending.finish = .pending ∧ ∀ b, (EntryState.discard b).finish = .discard true :=
  ⟨rfl, fun _ => rfl, rfl, fun _ => rfl⟩

/-- R122: the entry becomes READY OKAY NONE, and the timer stops with the list empty. -/
theorem test_okay_completion :
    after (.memoryResponse 3 true 0) (outstanding [outWrite] (some 4))
        (fun t => ((t.ports.get 2).order.map (·.state), t.memory.timer, (t.monitor.ctx 9).verdict))
      = some ([.ready { cause := .none, data := [] }], none, .none) := by decide +kernel

theorem witness_RequestFails :
    (outstanding [outWrite] (some 0)).memory.outstanding = outWrite :: []
      ∧ (outstanding [outWrite] (some 0)).memory.timer = some 0 := by decide +kernel

/-- R125: FAULT MEM_TIMEOUT and the flag. -/
theorem test_memory_timeout :
    after .memoryTimeout (outstanding [outWrite] (some 0))
        (fun t => ((t.ports.get 2).order.map (·.state), t.attention.flags, (t.monitor.ctx 9).verdict))
      = some ([.ready { cause := .memTimeout, data := [] }], 0x20, .memTimeout) := by decide +kernel

theorem witness_IssuesAndIdleMemoryPort_discard :
    ∀ e, (outstanding [outWrite] none).memory.outstanding.head? = some e → e.tx.tag ≠ 4 := by
  intro e h
  cases h
  decide +kernel

theorem witness_IssuesAndIdleMemoryPort_timer :
    (outstanding [outWrite] (some 1)).memory.timer ≠ some 0 ∧ idle.memory.outstanding = [] := by decide +kernel

theorem witness_IssuesAndIdleMemoryPort_writeHalf :
    ∃ t, tallyWaits.tally.waiting = 0 :: [] ∧ tallyWaits.tally.slots.get 0 = some t ∧ idle.tally.waiting = [] :=
  ⟨_, rfl, rfl, rfl⟩

/-- The last clause on a WRITING slot, at the first and the last byte of both widths (R89: least significant byte first). -/
theorem witness_IssuesAndIdleMemoryPort_bytes :
    { tallyT 0x20 with phase := .writing 0x7FFFFFFE true }.writeData = [0xFE, 0xFF, 0xFF, 0x7F]
      ∧ { tallyW 5 with phase := .writing 0x0807060504030201 false }.writeData = [1, 2, 3, 4, 5, 6, 7, 8] := by decide +kernel

theorem witness_IssuesAndIdleMemoryPort_loader :
    ∃ b addr rest, State.reset.loader.reading = some b ∧ b.asked = addr :: rest ∧ idle.loader.reading = none :=
  ⟨_, _, _, rfl, rfl, rfl⟩

/-- R135: the first header read is at the policy base. -/
theorem test_first_loader_read :
    after .loaderReadIssue State.reset (fun t => t.memory.issued)
      = some [{ tag := 0, dir := .read, addr := 0x0000FE00, len := .single .s8, data := [] }] := by decide +kernel

/-- The owner of agent 8's tally. -/
def ownerT : Owner := { agent := 8, epoch := 0, cell := 0x00048000, region := .region 1 }

/-- Agent 8's tally of 5.6 in the phase and with the half given, outstanding. -/
def tallyOut (phase : TallyPhase) (o : Origin) (timer : Option Nat) : State :=
  { idle with
    tally := { slots := idle.tally.slots.set 0 (some { tallyT 0x20 with phase := phase }), waiting := [] }
    memory :=
      { outstanding := [{ tx := { tag := 0, dir := .read, addr := 0x00048004, len := .single .s4, data := [] }, origin := o }]
        nextTag := 1, timer := timer
        issued := [{ tag := 0, dir := .read, addr := 0x00048004, len := .single .s4, data := [] }] } }

/-- Step 5 of 5.6: the read half is outstanding. -/
def tallyReads : State := tallyOut .reading (.tallyRead ownerT 0) (some 0)

theorem witness_ReadHalfCompletes :
    ∃ e t v, tallyReads.memory.outstanding = e :: [] ∧ e.origin = .tallyRead ownerT 0
      ∧ tallyReads.tally.slots.get 0 = some t ∧ (v, true) = t.form (laneBytes t.width.bytes 0x7FFFFFF0) :=
  ⟨_, _, _, rfl, rfl, rfl, (by decide +kernel : ((0x7FFFFFFF#64, true) = _))⟩

/-- Step 6 of 5.6: WRITING with 7FFFFFFFH, SATURATED set, the write half waiting. -/
theorem test_read_half :
    after (.memoryResponse 0 true 0x7FFFFFF0) tallyReads
        (fun t => ((t.tally.slots.get 0).map (·.phase), t.tally.waiting, t.attention.flags))
      = some (some (.writing 0x7FFFFFFF true), [0], 0x40) := by decide +kernel

/-- Both widths at the edges of their ranges. -/
theorem witness_TallyArithmetic :
    (leBytes 4 0x7FFFFFFF).length = (tallyT 1).width.bytes ∧ (leBytes 4 0x80000000).length = (tallyT 0xFFFFFFFF).width.bytes
      ∧ (tallyT 1).mode = .saturate ∧ (leBytes 8 0xFFFFFFFFFFFFFFFF).length = (tallyW 1).width.bytes ∧ (tallyW 1).mode = .wrap := by
  decide +kernel

/-- R90: a sum exactly on the maximum does not clamp; one above it does. -/
theorem test_saturate_edges :
    (tallyT 1).form (leBytes 4 0x7FFFFFFE) = (0x7FFFFFFF, false) ∧ (tallyT 1).form (leBytes 4 0x7FFFFFFF) = (0x7FFFFFFF, true)
      ∧ (tallyT 0xFFFFFFFF).form (leBytes 4 0x80000001) = (0x80000000, false) := by decide +kernel

/-- Step 7 of 5.6: the write half is outstanding. -/
def tallyWrites : State := tallyOut (.writing 0x7FFFFFFF true) (.tallyWrite ownerT 0) (some 4)

theorem witness_TallyEnds :
    (∃ e t o, tallyWrites.memory.outstanding = e :: [] ∧ tallyWrites.tally.slots.get 0 = some t ∧ e.origin = .tallyWrite o 0)
      ∧ ∃ e t o, tallyReads.memory.outstanding = e :: [] ∧ tallyReads.tally.slots.get 0 = some t ∧ e.origin = .tallyRead o 0
        ∧ tallyReads.memory.timer = some 0 :=
  ⟨⟨_, _, _, rfl, rfl, rfl⟩, ⟨_, _, _, rfl, rfl, rfl, rfl⟩⟩

/-- R85, R90: the outcome of a slot whose new value was clamped, of one whose value was not, and of a READING one. -/
theorem test_tally_outcome :
    ([.writing 0x7FFFFFFF true, .writing 0x7FFFFFFF false, .reading] : List TallyPhase).map
        (fun ph => ({ tallyT 0x20 with phase := ph }).outcome) = [.saturated, .none, .none] := by decide +kernel

/-- Step 8 of 5.6: the slot is FREE and agent 8's verdict is OKAY SATURATED. -/
theorem test_tally_ends :
    after (.memoryResponse 0 true 0) tallyWrites (fun t => (t.tally.slots.get 0, (t.monitor.ctx 8).verdict))
      = some (none, .saturated) := by decide +kernel

/-! ### Witnesses: the policy block -/

/-- The smallest block and the largest. -/
theorem witness_ValidBlockConditions :
    (List.replicate 24 (0 : Byte)).length = 24 + 24 * leField (List.replicate 24 (0 : Byte)) 12 1
      ∧ (List.replicate 408 (16 : Byte)).length = 24 + 24 * leField (List.replicate 408 (16 : Byte)) 12 1 := by decide +kernel

/-- A loader read of tag `k`. -/
def loaderEntry (k : Nat) : OutEntry :=
  { tx := { tag := BitVec.ofNat 5 k, dir := .read, addr := 0x0007FE00 + BitVec.ofNat 32 (8 * k), len := .single .s8, data := [] }
    origin := .loaderRead }

/-- A read of the block of 7.7 in the part state given, with the reads outstanding and the bytes returned so far. -/
def loading (part : PartState) (es : List OutEntry) (b : BlockRead) : State :=
  { idle with
    loader := { board with part := part, reading := some b }
    memory := { outstanding := es, nextTag := BitVec.ofNat 5 es.length, timer := some 0, issued := [] } }

/-- The bytes of 7.7. -/
def block77 : List Byte := blockBytes 0xA2D3D13B 1 0x00030001

/-- The last header read is outstanding. -/
def lastHeader (part : PartState) : State :=
  loading part [loaderEntry 2] { asked := [], bytes := block77.take 16, count := none, failed := false }

/-- The last descriptor read is outstanding. -/
def lastDescriptor (part : PartState) : State :=
  loading part [loaderEntry 11] { asked := [], bytes := block77.take 88, count := some 3, failed := false }

theorem witness_LoaderReadGoesOn :
    ∃ e b, (lastHeader .loading).memory.outstanding = e :: [] ∧ e.origin = .loaderRead
      ∧ (lastHeader .loading).loader.reading = some b ∧ b.failed = false ∧ b.asked = [] ∧ b.count = none
      ∧ leField (b.bytes ++ laneBytes e.tx.len.bytes 0x03E807D0) 0 4 = 0x574C3432
      ∧ leField (b.bytes ++ laneBytes e.tx.len.bytes 0x03E807D0) 12 1 = 3 :=
  ⟨_, _, rfl, rfl, rfl, rfl, rfl, rfl, by decide +kernel, by decide +kernel⟩

/-- 7.7: after the header, 9 descriptor reads are asked for. -/
theorem test_descriptor_reads :
    after (.memoryResponse 2 true 0x03E807D0) (lastHeader .loading) (fun t => t.loader.reading.map (·.asked.length))
      = some (some 9) := by decide +kernel

theorem witness_BlockReadEnds :
    ∃ e b, (lastDescriptor .fetching).memory.outstanding = e :: [] ∧ e.origin = .loaderRead
      ∧ (lastDescriptor .fetching).loader.reading = some b ∧ b.failed = false ∧ b.asked = [] ∧ b.count ≠ none
      ∧ (lastDescriptor .fetching).loader.part = .fetching ∧ (lastDescriptor .loading).loader.part = .loading :=
  ⟨_, _, rfl, rfl, rfl, rfl, rfl, by decide +kernel, rfl, rfl⟩

/-- 7.7: regions 0 to 2 with generation 1, RUNNING, and no RELOAD flag at start-up; in a reload RELOAD_APPLIED is set. -/
theorem test_block_installed :
    after (.memoryResponse 11 true 0x0000F000) (lastDescriptor .loading)
        (fun t => (t.loader.regions, t.loader.generation, t.loader.part, t.attention.flags))
      = some (board.regions.take 3, 1, .running, 0)
      ∧ after (.memoryResponse 11 true 0x0000F000) (lastDescriptor .fetching) (fun t => t.attention.flags) = some 0x08 := by
  decide +kernel

theorem witness_LoaderReadFails :
    ∃ e b, (lastDescriptor .loading).memory.outstanding = e :: [] ∧ e.origin = .loaderRead
      ∧ (lastDescriptor .loading).loader.reading = some b ∧ (lastDescriptor .loading).memory.timer = some 0
      ∧ ∃ y ∈ [loaderEntry 12], y.origin = .loaderRead :=
  ⟨_, _, rfl, rfl, rfl, rfl, _, List.mem_singleton_self _, rfl⟩

/-- R136, R139: a failed read at start-up leaves the block invalid: MEM_ERROR and LOAD_INVALID. -/
theorem test_load_invalid :
    after (.memoryResponse 11 false 0) (lastDescriptor .loading) (fun t => (t.loader.part, t.attention.flags))
      = some (.running, 0x12) := by decide +kernel

/-- A trigger write of agent 9's port, outstanding alone. -/
def triggerOut : State := outstanding [outReq (wr 1 0x0007FE04 (.single .s4) 2) 9 .forward true] (some 9)

theorem witness_ReloadStarts :
    ∃ e o t, triggerOut.memory.outstanding = e :: [] ∧ e.origin = .agentRequest o 8 .forward true
      ∧ exec (.memoryResponse e.tx.tag true 0)
          { triggerOut with memory := { triggerOut.memory with
              outstanding := { e with origin := .agentRequest o 8 .forward false } :: [] } } = .next t :=
  ⟨_, _, _, rfl, rfl, rfl⟩

/-- R141: nothing to drain, so FETCHING begins at the trigger's completion; with another entry behind it the part drains first. -/
theorem test_reload_starts :
    after (.memoryResponse 3 true 0) triggerOut (fun t => t.loader.part) = some .fetching
      ∧ after (.memoryResponse 3 true 0)
          (outstanding [outReq (wr 1 0x0007FE04 (.single .s4) 2) 9 .forward true, outWrite] (some 9)) (fun t => t.loader.part)
        = some .draining := by decide +kernel

/-- The header of 7.7 with another region count. -/
def headerWith (count : Byte) : List Byte := block77.take 12 ++ count :: (block77.drop 13).take 11

/-- The early check's edges: a count of 0 goes straight to the final check, 17 and a wrong signature end the read invalid. -/
theorem witness_BlockReadEnds_header :
    leField (headerWith 0) 12 1 = 0 ∧ 16 < leField (headerWith 17) 12 1 ∧ leField (0 :: (headerWith 3).tail) 0 4 ≠ 0x574C3432
      ∧ (headerWith 0).length = 24 := by decide +kernel

/-! ### Witnesses: the tick, the expiries and the monitor -/

/-- R30, R72, R79, R146: a tick; the time base wraps. -/
theorem test_tick :
    after .timeBaseTick ({ full 800 40 with capture := { idle.capture with timeBase := 0xFFFFFFFF } } : State)
        (fun t => (t.capture.timeBase, t.monitor.slots.get 0, t.monitor.slots.get 1, t.monitor.table.map (·.lease)))
      = some (0, .entitled 1 799, .holding 5 0x00040008 0 39, [189]) := by decide +kernel

/-- An entry whose lease has run out. -/
def expired : State :=
  { idle with
    monitor := { idle.monitor with table := [{ agent := 6, cell := 0x00040018, region := 0, lease := 0 }] } }

theorem witness_LeaseExpiryResult :
    expired.monitor.tableLawful ∧ { agent := 6, cell := 0x00040018, region := 0, lease := 0 } ∈ expired.monitor.table := by
  unfold Monitor.tableLawful; decide +kernel

/-- Row 1230 of Example 1 of 2.7: 6:D leaves with loss entry D EXPIRED. -/
theorem test_lease_expiry :
    after (.leaseExpiry 6 0x00040018) expired (fun t => (t.monitor.table, (t.monitor.ctx 6).loss))
      = some ([], [{ cell := 0x00040018, cause := .expired }]) := by decide +kernel

/-- The entry of 6 on D ran out at the last tick; a live entitlement limit; and 6's write to D at the head of its queue. -/
theorem witness_TickCountsDown :
    expired.monitor.lawful ∧ 0 < expired.loader.entitlementLimit ∧ ¬expired.monitor.noneRunOut
      ∧ (holdReq expired 1 (wr 2 0x00040018 (.single .s8) 5)).winner = some (grantOf idle 1 (wr 2 0x00040018 (.single .s8) 5))
      ∧ (grantOf idle 1 (wr 2 0x00040018 (.single .s8) 5)).cls.disp = .guardedWrite
      ∧ (full 800 40).monitor.noneRunOut ∧ (full 800 40).memory.timer ≠ some 0 := by
  refine ⟨?_, by decide +kernel, by unfold Monitor.noneRunOut; decide +kernel, by decide +kernel, by decide +kernel,
    fullSlots_noneRunOut, by decide +kernel⟩
  rw [Monitor.lawful_iff]; decide +kernel

/-- R30, R33: a lease that has run out does not outlive the next tick, and a write of its agent before that is refused EXPIRED. -/
theorem test_run_out_is_taken :
    after .timeBaseTick expired (fun t => (t.monitor.table, (t.monitor.ctx 6).loss))
        = some ([], [{ cell := 0x00040018, cause := .expired }])
      ∧ after .admission (holdReq expired 1 (wr 2 0x00040018 (.single .s8) 5))
          (fun t => ((t.ports.get 1).order.map (·.state), t.monitor.table))
        = some ([.ready { cause := .expired, data := [] }], []) := by decide +kernel

/-- Slots 0 and 1 of Example 2 of 4.7 have run out. -/
theorem witness_SlotExpiries :
    (full 0 0).monitor.lawful ∧ (full 0 0).monitor.slots.get 0 = .entitled 1 0
      ∧ (full 0 0).monitor.slots.get 1 = .holding 5 0x00040008 0 0 := by
  refine ⟨?_, by decide +kernel, by decide +kernel⟩
  rw [Monitor.lawful_iff]
  decide +kernel

/-- Example 2 of 4.7, step 3: B is lost as EXPIRED and agent 6 takes slot 1 with 2000. -/
theorem test_hold_expiry :
    after (.holdLimitExpiry 1) (full 800 0) (fun t => (t.monitor.slots.get 1, t.monitor.waitList, (t.monitor.ctx 5).loss))
      = some (.entitled 6 2000, [11], [{ cell := 0x00040008, cause := .expired }]) := by decide +kernel

theorem test_entitlement_expiry :
    after (.entitlementExpiry 0) (full 0 40) (fun t => (t.monitor.slots.get 0, (t.monitor.ctx 1).state))
      = some (.entitled 6 2000, .normal) := by decide +kernel

theorem witness_MonitorLawKept :
    ∃ t, (full 800 40).monitor.lawful ∧ step { full 800 40 with pending := [.portReset 0] } = .next t := ⟨_, fullSlots_lawful, rfl⟩

theorem witness_WaitListAtMostTwelve : (fullSlots 800 40).lawful ∧ (fullSlots 800 40).waitList ≠ [] :=
  ⟨fullSlots_lawful, by decide +kernel⟩

/-- A full loss list. -/
def fourLosses : List LossEntry :=
  [{ cell := 0, cause := .broken }, { cell := 8, cause := .expired }, { cell := 16, cause := .evicted },
   { cell := 24, cause := .dropped }]

theorem witness_LossInsertion :
    fourLosses.length ≤ 4 ∧ fourLosses.Pairwise (fun x y => x.cell ≠ y.cell)
      ∧ fourLosses = [{ cell := 0, cause := .broken }] ++ { cell := 8, cause := .expired } :: fourLosses.drop 2
      ∧ ∀ x ∈ fourLosses, x.cell ≠ 32 := by decide +kernel

/-- R36: a new cell pushes out the oldest, a known one moves to the newest end. -/
theorem test_insertLoss :
    (insertLoss fourLosses 32 .broken).map (·.cell) = [8, 16, 24, 32]
      ∧ (insertLoss fourLosses 8 .dropped).map (·.cell) = [0, 16, 24, 8] := by decide +kernel

/-- The end of Example 2 of 4.7: MONITOR_RESET loses only the held cells, as DROPPED, and 4's entry on C. -/
theorem test_monitor_reset :
    after .monitorReset (full 800 40) (fun t => ((t.monitor.ctx 9).loss, (t.monitor.ctx 4).loss, (t.monitor.ctx 1).loss, t.monitor.waitList))
      = some ([{ cell := 0x00040010, cause := .dropped }], [{ cell := 0x00040010, cause := .dropped }], [], []) := by
  decide +kernel

/-! ### Witnesses: capture -/

/-- The setup of Example 1 of 8.8. -/
def setup88 : Setup :=
  { kindMask := 7, regionMask := 1, agentMask := 0xFFFF, triggerKind := some .brk, agentMatchOn := true, agentMatch := 4
    cellMatchOn := true, cellMatch := 0x00040000, count := 3, position := .lead }

/-- The capture of 8.8 in a state, with a match counter and the sequence counter 1000. -/
def capture88 (st : CaptureState) (matches_ : Nat) : Capture :=
  { idle.capture with state := st, nextSeq := 1000, matchCount := matches_, setup := setup88 }

theorem witness_ArmAndStop :
    ({ idle with capture := capture88 .triggered 3 } : State).capture.state = .triggered ∧ idle.capture.state = .off := by
  decide +kernel

theorem test_arm_and_stop :
    after .captureArm ({ idle with capture := capture88 .frozen 3 } : State) (fun t => (t.capture.state, t.capture.matchCount))
        = some (.running, 0)
      ∧ after .captureStop ({ idle with capture := capture88 .running 2 } : State) (fun t => (t.capture.state, t.attention.flags))
        = some (.frozen, 1)
      ∧ after .captureStop idle (fun t => (t.capture.state, t.attention.flags)) = some (.off, 0) := by decide +kernel

/-- The arguments of the setup of 8.8, with a count and a position. -/
def args88 (count position : Byte) : SetupArgs :=
  { kindMask := 7, regionMask := 1, agentMask := 0xFFFF, triggerKind := 3, matchFlags := 3, agentMatch := 4
    cellMatch := 0x00040000, count := count, position := position }

/-- Arguments in range, and out of range by the trigger kind alone: 12 and 13; both outcomes of the capture's state. -/
theorem witness_SetupAndRead :
    ¬(12 < ({ args88 3 0 with triggerKind := 12 } : SetupArgs).triggerKind.toNat)
      ∧ 12 < ({ args88 3 0 with triggerKind := 13 } : SetupArgs).triggerKind.toNat
      ∧ (args88 3 0).count ≠ 0 ∧ (args88 3 0).position.toNat ≤ 2 ∧ (args88 3 0).cellMatch.toNat % 8 = 0
      ∧ idle.link.frame ≠ .awaitRise ∧ idle.capture.state = .off
      ∧ ({ idle with capture := capture88 .running 0 } : State).capture.state = .running := by decide +kernel

/-- R159, R179: trigger kind 12 is CONTROL, 13 is BADARG, and BUSY goes before. -/
theorem test_trigger_kind_edges :
    after (.captureSetup { args88 3 0 with triggerKind := 12 }) idle (fun t => (t.link.frame, t.capture.setup.triggerKind))
        = some (.replied .ack [] .nothing, some .control)
      ∧ after (.captureSetup { args88 3 0 with triggerKind := 13 }) idle (·.link.frame) = some (.replied .badarg [] .nothing)
      ∧ after (.captureSetup { args88 3 0 with triggerKind := 13 }) ({ idle with capture := capture88 .running 0 } : State) (·.link.frame)
        = some (.replied .busy [] .nothing) := by decide +kernel

/-- R164, R179: BUSY before the arguments are looked at; a count of 0 and a position of 3 are BADARG; position 2 is not. -/
theorem test_setup_edges :
    after (.captureSetup (args88 0 0)) ({ idle with capture := capture88 .running 0 } : State) (·.link.frame)
        = some (.replied .busy [] .nothing)
      ∧ after (.captureSetup (args88 0 0)) idle (·.link.frame) = some (.replied .badarg [] .nothing)
      ∧ after (.captureSetup (args88 1 3)) idle (·.link.frame) = some (.replied .badarg [] .nothing)
      ∧ after (.captureSetup (args88 3 0)) idle (fun t => (t.link.frame, t.capture.setup))
        = some (.replied .ack [] .nothing, setup88) := by decide +kernel

theorem test_read_edges :
    ([0, 1, 256, 257] : List Nat).map (fun n => after (.captureRead 0 (BitVec.ofNat 16 n)) idle (·.link.frame))
      = [some (.replied .badarg [] .nothing), some (.replied .ack [0, 0, 0, 0] .nothing),
         some (.replied .ack [0, 0, 0, 0] .nothing), some (.replied .badarg [] .nothing)] := by decide +kernel

/-- BREAK(4, A, other 13), the trigger of 8.8. -/
def break4 : Record := .ofBreak 4 0x00040000 (.region 0) 13

/-- COMMIT(9, A, region 0). -/
def commit9 : Record := .ofCommit 9 0x00040000 (.region 0)

/-- The hypotheses on the capture, and 128 and 255 records after the trigger that pass the filter. -/
theorem witness_PositionsFreeze :
    (capture88 .running 2).state = .running ∧ (capture88 .running 2).ring.length ≤ 256
      ∧ (capture88 .running 2).setup.passes break4 = true ∧ (capture88 .running 2).setup.matchesTrigger break4 = true
      ∧ (capture88 .running 2).matchCount + 1 = (capture88 .running 2).setup.count
      ∧ (∀ x ∈ List.replicate 128 commit9, (capture88 .running 2).setup.passes x = true)
      ∧ (∀ x ∈ List.replicate 255 commit9, (capture88 .running 2).setup.passes x = true)
      ∧ (List.replicate 128 commit9).length = 128 ∧ (List.replicate 255 commit9).length = 255 := by decide +kernel

/-- A record that freezes by LEAD, one that spends the post-trigger count, and one that does neither. -/
theorem witness_PositionsFreeze_flag :
    (capture88 .running 2).setup.position = .lead ∧ (capture88 .running 2).setup.passes break4 = true
      ∧ ({ capture88 .triggered 3 with remaining := 1 } : Capture).state = .triggered ∧ setup88.passes commit9 = true
      ∧ (capture88 .running 1).matchCount + 1 ≠ (capture88 .running 1).setup.count := by decide +kernel

/-- R154: the trigger record of a LEAD capture sets FROZEN; the record before it sets nothing. -/
theorem test_freeze_sets_flag :
    (({ idle with capture := capture88 .running 2 } : State).offer break4).attention.flags = 1
      ∧ (({ idle with capture := capture88 .running 2 } : State).offer commit9).attention.flags = 0 := by decide +kernel

/-- Example 1 of 8.8: the group freezes at its second record. -/
theorem test_group_cut :
    ([commit9, break4, .ofBreak 6 0x00040000 (.region 0) 9].foldl Capture.take (capture88 .running 2)).ring.map (·.record)
      = [commit9, break4] := by decide +kernel

/-- Example 1 of 8.8: TALLY fails the kind mask, BREAK(2) does not match, BREAK(4) matches. -/
theorem witness_FilterMatchAndAppend :
    setup88.passes (.ofTally 8 0x00048000 (.region 1) .none) = false ∧ setup88.passes break4 = true
      ∧ setup88.matchesTrigger (.ofBreak 2 0x00040000 (.region 0) 9) = false ∧ setup88.matchesTrigger break4 = true
      ∧ (capture88 .running 0).state = .running ∧ (capture88 .running 0).matchCount + 1 ≠ (capture88 .running 0).setup.count := by
  decide +kernel

/-- One record in the ring, and a CAUSES frame in progress. -/
def recorded : State :=
  { idle with
    capture := { capture88 .running 0 with ring := [{ seq := 999, time := 5, record := commit9 }] }
    attention := { flags := 0x80, mask := 0, marks := some 0 }
    link := { pause := false, frame := .replied .ack [0x80] (.clearCauses 0x80) } }

theorem witness_CaptureAndMarksLawsKept :
    ∃ t, recorded.capture.lawful ∧ recorded.marksLawful
      ∧ step { recorded with pending := [.causesCompletion] } = .next t := by
  refine ⟨_, ⟨by decide +kernel, ?_⟩, ⟨fun _ => ⟨_, _, _, rfl⟩, fun _ => by decide +kernel⟩, rfl⟩
  intro k x h
  match k with
  | 0 => cases h; decide +kernel
  | k + 1 => cases h

theorem witness_CaptureTakesNoPart : Instr.overLink .admission = false := by decide +kernel

/-! ### Witnesses: the link -/

theorem witness_SnapshotsOnlyReply :
    (0x23#8 : Byte) ∉ commandBytes ∧ 15 < (16#8 : Byte).toNat ∧ 1 < (2#8 : Byte).toNat
      ∧ (full 800 40).monitor.table[0]? = some { agent := 4, cell := 0x00040010, region := 0, lease := 190 }
      ∧ (full 800 40).monitor.waitList[1]? = some 11 ∧ (full 800 40).link.frame ≠ .awaitRise := by decide +kernel

/-- 11.3: one table entry in a RESERVATIONS frame, and the STATUS bytes of the board. -/
theorem test_snapshot_bytes :
    (full 800 40).monitor.reservationBytes = [1, 4, 0, 0x10, 0x00, 0x04, 0x00, 190, 0]
      ∧ (full 800 40).statusBytes = [1, 0, 1, 0, 0, 0, 1, 4, 1, 4, 2, 0, 0, 0, 0, 0] := by decide +kernel

/-- 11.3: slots 0 and 1 of Example 2 of 4.7 and its wait list in a HOLDS frame, and region 2 of 1.9 in a REGION frame. -/
theorem test_hold_and_region_bytes :
    (full 800 40).monitor.holdBytes.take 18 = [1, 1, 0, 0, 0, 0, 0, 0x20, 0x03, 2, 5, 0, 0x08, 0x00, 0x04, 0x00, 40, 0]
      ∧ (full 800 40).monitor.holdBytes.drop 36 = [2, 6, 11]
      ∧ board.regionBytes 2 = [1, 0x50, 0, 0, 0, 16, 0, 0, 0, 3, 0, 0, 0, 0, 0, 0, 0x00, 0xF0] := by decide +kernel

/-- 11.5: the cause flags from bit 0 to bit 7, as the flags byte of STATUS shows each one alone. -/
theorem test_flag_bits :
    ([.frozen, .loadInvalid, .reloadRejected, .reloadApplied, .memError, .memTimeout, .saturated, .eviction]
      : List CauseFlag).map (fun g => (idle.setFlag g).statusBytes[14]?)
      = [some 0x01, some 0x02, some 0x04, some 0x08, some 0x10, some 0x20, some 0x40, some 0x80] := by decide +kernel

/-- The flags of 9.8: EVICTION and MEM_TIMEOUT. -/
def flags98 : State := { idle with attention := { flags := 0xA0, mask := 0, marks := none } }

theorem witness_CausesFrame : flags98.link.frame ≠ .awaitRise := by decide +kernel

/-- Example 1 of 9.8: EVICTION set again and SATURATED set between snapshot and completion: MEM_TIMEOUT alone is cleared. -/
theorem test_causes :
    (((nextOf (exec .causes flags98)).map fun s => (s.setFlag .eviction).setFlag .saturated).bind fun s =>
        after .causesCompletion s (fun t => t.attention.flags))
      = some 0xC0 := by decide +kernel

theorem witness_MaskRule :
    ∃ t, idle.link.frame ≠ .awaitRise ∧ exec .admission idle = .next t ∧ ∀ mask, Instr.admission ≠ .setmask mask :=
  ⟨_, by decide +kernel, rfl, fun _ => by simp⟩

/-- R174: masking the only flag set releases ATTN_n. -/
theorem test_mask_releases :
    flags98.attnLow = true ∧ after (.setmask 0xA0) flags98 State.attnLow = some false
      ∧ after (.setmask 0x20) flags98 State.attnLow = some true := by decide +kernel

/-- An AGENT frame with clear option 1 in progress. -/
def agentFrame : State :=
  { full 800 40 with link := { pause := false, frame := .replied .ack [] (.lowerCounters 6 120 37) } }

theorem witness_AgentFrames :
    (6#8 : Byte).toNat = (6 : Agent).val ∧ (1#8 : Byte).toNat ≤ 1
      ∧ agentFrame.link.frame = .replied .ack [] (.lowerCounters 6 120 37)
      ∧ (agentFrame.ports.get (portOf 6)).resetAsserted = false := by decide +kernel

/-- R60, R163: after a port reset of the agent's port the rise of CS_n ends the frame and lowers nothing. -/
theorem test_cancelled_clear :
    ((nextOf (exec (.portReset 1) agentFrame)).bind fun s => after .agentClear s (fun t => (t.link.frame, (t.monitor.ctx 6).commits)))
      = some (.between, 0) := by decide +kernel

/-- R60: increments between the snapshot and the completion are kept. -/
theorem test_agent_clear :
    after .agentClear ({ agentFrame with monitor := agentFrame.monitor.updCtx 6 fun x => { x with commits := 121, refusals := 37 } } : State)
        (fun t => ((t.monitor.ctx 6).commits, (t.monitor.ctx 6).refusals))
      = some (1, 0) := by decide +kernel

theorem witness_FrameEndsAndIdleEvents :
    (∀ e ∈ (full 800 40).monitor.table, e.agent = 4 → e.cell = 0x00040010 → e.lease ≠ 0)
      ∧ (∀ a, (full 1 1).monitor.slots.get 0 ≠ .entitled a 0) ∧ (∀ a c r, (full 1 1).monitor.slots.get 1 ≠ .holding a c r 0)
      ∧ (∀ st data shown, agentFrame.link.frame ≠ .replied st data (.clearCauses shown))
      ∧ (∀ st data a n k, recorded.link.frame ≠ .replied st data (.lowerCounters a n k))
      ∧ (∀ st data, recorded.link.frame ≠ .replied st data .clearCancelled)
      ∧ encodeFrame .halt = some [0x21]
      ∧ ({ idle with link := { pause := false, frame := .awaitRise } } : State).link.frame = .awaitRise := by
  refine ⟨by decide +kernel, ?_, ?_, ?_, ?_, ?_, rfl, rfl⟩
  · intro a h; cases h
  · intro a c r h; cases h
  · intro st data shown h; cases h
  · intro st data a n k h; cases h
  · intro st data h; cases h

theorem witness_FrameRoundTrip :
    Instr.wellFormed (.captureRead 5 256) = true ∧ encodeFrame (.captureRead 5 256) = some [0x13, 5, 0, 1]
      ∧ decodeFrame [0x07, 0x0F, 0x55] = some (.region 15) ∧ idle.link.frame ≠ .awaitRise
      ∧ Instr.wellFormed (.badcmd 0x23) = true ∧ encodeFrame (.badcmd 0x23) = some [0x23] := by decide +kernel

/-- R162, R164: MISO of a CAUSES frame on the flags of 9.8, and of a frame with the unknown command byte 23H. -/
theorem test_miso :
    after .causes { idle with attention := { flags := 0xA0, mask := 0, marks := none } }
        (fun t => ([0, 1, 2, 3] : List Nat).map (t.link.frame.shiftsOut 1))
      = some [0x00, 0x01, 0xA0, 0x00]
      ∧ after (.badcmd 0x23) idle (fun t => ([0, 1, 2, 9] : List Nat).map (t.link.frame.shiftsOut 1))
        = some [0x00, 0x03, 0x03, 0x03] := by decide +kernel

/-! ### Witnesses: the laws of the policy, the memory port and the tallies -/

theorem witness_PolicyLawsKept :
    ∃ t, (full 800 40).loader.lawful ∧ (full 800 40).regionsAgree ∧ step { full 800 40 with pending := [.admission] } = .next t := by
  refine ⟨_, ?_, ?_, rfl⟩
  · unfold Loader.lawful; decide +kernel
  · unfold State.regionsAgree; decide +kernel

/-- The state of 5.6 between steps 6 and 7, with the write half to be issued next. -/
def writeHalfNext : State := { tallyWaits with pending := [.writeHalfIssue] }

theorem writeHalfNext_tallyTrafficLawful : writeHalfNext.tallyTrafficLawful := by
  refine ⟨by unfold State.placesLawful; decide +kernel, ?_, tallyWaits_lawful, ?_, ?_⟩
  · intro k e h; cases h
  · intro i t h ht
    match i with
    | 0 => cases h; exact ⟨_, _, rfl⟩
    | 1 => cases h
    | 2 => cases h
    | 3 => cases h
  · intro e he; cases he

theorem writeHalfNext_tallyCellsLawful : writeHalfNext.tallyCellsLawful := by
  refine ⟨?_, by decide +kernel, by decide +kernel⟩
  intro i t h
  match i with
  | 0 =>
    cases h
    exact ⟨⟨by decide +kernel, Or.inr rfl⟩, by decide +kernel⟩
  | 1 => cases h
  | 2 => cases h
  | 3 => cases h

theorem writeHalfNext_tallyHistoryLawful : writeHalfNext.tallyHistoryLawful := by
  intro i t h
  match i with
  | 0 =>
    cases h
    exact ⟨{ tag := 0, dir := .read, addr := 0x00048004, len := .single .s4, data := [] }, by decide +kernel,
      ⟨rfl, by decide +kernel, rfl⟩⟩
  | 1 => cases h
  | 2 => cases h
  | 3 => cases h

theorem witness_MemoryPortLawKept :
    ∃ t, writeHalfNext.tallyTrafficLawful ∧ writeHalfNext.memory.timerLawful ∧ step writeHalfNext = .next t :=
  ⟨_, writeHalfNext_tallyTrafficLawful, fun _ => rfl, rfl⟩

/-- The step issues a write into a TALLY region, so that the last clause is not empty. -/
theorem witness_TallyTrafficLaw :
    ∃ t tx, writeHalfNext.tallyTrafficLawful ∧ writeHalfNext.tallyCellsLawful ∧ writeHalfNext.tallyHistoryLawful
      ∧ step writeHalfNext = .next t ∧ t.memory.issued = writeHalfNext.memory.issued ++ [] ++ tx :: [] ∧ tx.dir = .write
      ∧ writeHalfNext.loader.inTally tx.addr.toNat = true :=
  ⟨_, { tag := 1, dir := .write, addr := 0x00048004, len := .single .s4, data := [0xFF, 0xFF, 0xFF, 0x7F] },
    writeHalfNext_tallyTrafficLawful, writeHalfNext_tallyCellsLawful, writeHalfNext_tallyHistoryLawful, rfl,
    by decide +kernel, rfl, by decide +kernel⟩

end Sys2Proof.Tests
end

section
/-! PROOFS. The region classifier (section 1.4): the area of a byte address, the alignment rule, and one equation of the disposition for
each kind of region; then O26. -/
namespace Sys2Proof

/-! ### The policy base (R128) and the span of a request (R8) -/

/-- The table of R128: the policy base of each strap setting. -/
theorem Config.policyBase_getElem? (pbase : Fin 4) :
    ([0x0000FE00, 0x0007FE00, 0x001FFE00, 0xFFFFFE00] : List Nat)[pbase.val]? = some (Config.policyBase pbase).toNat := by
  match pbase with
  | 0 => rfl
  | 1 => rfl
  | 2 => rfl
  | 3 => rfl

/-- Every policy base is aligned to the size of the window. -/
theorem Config.policyBase_mod (pbase : Fin 4) : (Config.policyBase pbase).toNat % 512 = 0 := by
  match pbase with
  | 0 => rfl
  | 1 => rfl
  | 2 => rfl
  | 3 => rfl

theorem Req.firstByte_le_lastByte (r : Req) : r.firstByte ≤ r.lastByte := by
  have hpos : 0 < r.len.bytes := by
    cases r.len with
    | single size => cases size <;> decide
    | burst extra => simp [Length.bytes]
  unfold Req.firstByte Req.lastByte
  omega

/-- The span of an aligned request lies in one block of 64 bytes. -/
theorem Req.div_64_of_aligned {r : Req} (h : r.misaligned = false) {b : Nat} (hfirst : r.firstByte ≤ b) (hlast : b ≤ r.lastByte) :
    b / 64 = r.firstByte / 64 := by
  unfold Req.firstByte at *
  unfold Req.lastByte at hlast
  unfold Req.misaligned at h
  cases hlen : r.len with
  | single size => cases size <;> simp [hlen, Length.bytes, Size.bytes] at h hlast <;> omega
  | burst extra => simp [hlen, Length.bytes] at h hlast; omega

end Sys2Proof

namespace Sys2Proof.Machine

/-! ### Areas (R7) -/

theorem Region.covers_iff (r : Region) (g : Nat) : r.covers g = true ↔ r.base ≤ g ∧ g < r.base + r.length := by
  simp [Region.covers]

theorem Loader.inWindow_iff (l : Loader) (a : Nat) :
    l.inWindow a = true ↔ l.policyBase.toNat ≤ a ∧ a ≤ l.policyBase.toNat + 511 := by
  simp only [Loader.inWindow, Bool.and_eq_true, decide_eq_true_eq]
  unfold Config.windowBytes
  omega

theorem Loader.areaOf_eq_window_iff (l : Loader) (a : Nat) : l.areaOf a = .window ↔ l.inWindow a = true := by
  cases hw : l.inWindow a <;> cases hf : l.regions.findIdx? (fun r => r.covers (granuleOf a)) <;> simp [Loader.areaOf, hw, hf]

/-- Outside the window the area names the first region that covers the granule. -/
theorem Loader.areaOf_eq_region_iff (l : Loader) (a i : Nat) :
    l.areaOf a = .region i ↔
      ¬l.inWindow a = true ∧ l.regions.findIdx? (fun r => r.covers (granuleOf a)) = some i := by
  cases hw : l.inWindow a <;> cases hf : l.regions.findIdx? (fun r => r.covers (granuleOf a)) <;> simp [Loader.areaOf, hw, hf]

theorem Loader.areaOf_eq_defaultSpace_iff (l : Loader) (a : Nat) :
    l.areaOf a = .defaultSpace ↔ ¬l.inWindow a = true ∧ ∀ r ∈ l.regions, r.covers (granuleOf a) = false := by
  rw [← List.findIdx?_eq_none_iff]
  cases hw : l.inWindow a <;> cases hf : l.regions.findIdx? (fun r => r.covers (granuleOf a)) <;> simp [Loader.areaOf, hw, hf]

/-- The region an area names stands in the table. -/
theorem Loader.exists_region_of_areaOf {l : Loader} {a i : Nat} (h : l.areaOf a = .region i) : ∃ r, l.regions[i]? = some r := by
  obtain ⟨hi, -⟩ := List.findIdx?_eq_some_iff_getElem.1 ((l.areaOf_eq_region_iff a i).1 h).2
  exact ⟨_, List.getElem?_eq_getElem hi⟩

/-- Window and regions are made of whole blocks of 512 bytes, so all bytes of such a block have one area. -/
theorem Loader.areaOf_congr (l : Loader) {a b : Nat} (h : a / 512 = b / 512) : l.areaOf a = l.areaOf b := by
  have hwindow : l.inWindow a = l.inWindow b := by
    have hbase : l.policyBase.toNat % 512 = 0 := Config.policyBase_mod l.pbase
    rw [Bool.eq_iff_iff, l.inWindow_iff, l.inWindow_iff]
    omega
  have hgranule : granuleOf a = granuleOf b := by
    simp only [granuleOf, Config.granuleBytes]
    omega
  simp only [Loader.areaOf, hwindow, hgranule]

/-! ### A valid table covers a granule at most once (R134) -/

theorem noOverlaps_iff_pairwise (rs : List Region) :
    noOverlaps rs = true ↔ rs.Pairwise fun r q => r.overlaps q = false := by
  induction rs with
  | nil => simp [noOverlaps]
  | cons r rs ih => simp [noOverlaps, ih]

theorem Region.overlaps_of_covers {r q : Region} {g : Nat} (hr : r.covers g = true) (hq : q.covers g = true) :
    r.overlaps q = true := by
  rw [Region.covers_iff] at hr hq
  simp only [Region.overlaps, Bool.and_eq_true, decide_eq_true_eq]
  omega

/-- So the first region that covers a granule is the only one. -/
theorem findIdx?_covers_iff {rs : List Region} (h : noOverlaps rs = true) (g i : Nat) :
    rs.findIdx? (fun r => r.covers g) = some i ↔ ∃ r, rs[i]? = some r ∧ r.covers g = true := by
  rw [List.findIdx?_eq_some_iff_getElem]
  constructor
  · rintro ⟨hi, hcovers, -⟩
    exact ⟨_, List.getElem?_eq_getElem hi, hcovers⟩
  · rintro ⟨r, hr, hcovers⟩
    obtain ⟨hi, rfl⟩ := List.getElem?_eq_some_iff.1 hr
    refine ⟨hi, hcovers, fun j hji hj => ?_⟩
    have hdisjoint := List.pairwise_iff_getElem.1 ((noOverlaps_iff_pairwise rs).1 h) j i (Nat.lt_trans hji hi) hi hji
    rw [Region.overlaps_of_covers hj hcovers] at hdisjoint
    cases hdisjoint

/-! ### No aligned request straddles (R9) -/

/-- Every byte of an aligned request has the area of its first byte. -/
theorem Loader.areaOf_of_aligned (l : Loader) {r : Req} (h : r.misaligned = false) {b : Nat} (hfirst : r.firstByte ≤ b)
    (hlast : b ≤ r.lastByte) : l.areaOf b = l.areaOf r.firstByte := by
  have hblock := Req.div_64_of_aligned h hfirst hlast
  exact l.areaOf_congr (by omega)

/-! ### The disposition (R8 to R12) -/

theorem Loader.classify_disp (l : Loader) (p : PortIx) (r : Req) :
    (l.classify p r).disp = (l.failedCheck p r).elim (passedDisposition (l.classify p r).kind r.dir) .answer := by
  unfold Loader.classify
  cases l.failedCheck p r <;> rfl

/-- An aligned request does not straddle, so that only the checks of R10 and R11 are left. -/
theorem Loader.failedCheck_of_aligned (l : Loader) (p : PortIx) {r : Req} (h : r.misaligned = false) :
    l.failedCheck p r =
      (kindCheck (l.classify p r).kind r).or (l.fenceCheck p (l.areaOf r.firstByte) (l.classify p r).kind r) := by
  have hspan : l.areaOf r.lastByte = l.areaOf r.firstByte := l.areaOf_of_aligned h r.firstByte_le_lastByte (Nat.le_refl _)
  simp only [Loader.failedCheck, h, hspan, Loader.classify]
  cases kindCheck (l.kindOf (l.areaOf r.firstByte)) r <;> simp

/-- The window is reported as OPEN (R7), so a request of another kind lies outside it. -/
theorem Loader.areaOf_ne_window {l : Loader} {p : PortIx} {r : Req} (h : (l.classify p r).kind ≠ .openRegion) :
    l.areaOf r.firstByte ≠ .window :=
  fun hw => h (by simp only [Loader.classify, hw, Loader.kindOf])

/-- Outside the window the fence check reads the mask of a FENCED region (R11). -/
theorem Loader.fenceCheck_of_fenced (l : Loader) (p : PortIx) {area : Area} (h : area ≠ .window) (w : BitVec 16) (r : Req) :
    l.fenceCheck p area (.fenced w) r =
      if r.dir = .write ∧ w.getLsbD (4 * p.val + r.tag.val) = false then some .fenced else none := by
  cases hd : r.dir with
  | read => simp [Loader.fenceCheck, hd]
  | write =>
    cases area with
    | window => exact absurd rfl h
    | region _ | defaultSpace =>
      cases hbit : w.getLsbD (4 * p.val + r.tag.val) <;> simp [Loader.fenceCheck, agentOf, hd, hbit]

/-- Outside the window no other kind fails the fence check. -/
theorem Loader.fenceCheck_of_not_fenced (l : Loader) (p : PortIx) {area : Area} (h : area ≠ .window) {k : RegionKind}
    (hk : ∀ w, k ≠ .fenced w) (r : Req) : l.fenceCheck p area k r = none := by
  cases hd : r.dir with
  | read => simp [Loader.fenceCheck, hd]
  | write => cases area <;> cases k <;> simp_all [Loader.fenceCheck]

theorem Loader.disp_of_misaligned (l : Loader) (p : PortIx) {r : Req} (h : r.misaligned = true) :
    (l.classify p r).disp = .answer .misaligned := by
  rw [l.classify_disp, Loader.failedCheck, if_pos h]
  rfl

theorem Loader.disp_of_open (l : Loader) (p : PortIx) {r : Req} (ha : r.misaligned = false)
    (hk : (l.classify p r).kind = .openRegion) :
    (l.classify p r).disp =
      if r.dir = .write ∧ l.areaOf r.firstByte = .window ∧ p ≠ l.ownp then .answer .fenced else .forward := by
  rw [l.classify_disp, l.failedCheck_of_aligned p ha, hk]
  cases hd : r.dir <;> cases l.areaOf r.firstByte <;> by_cases hp : p = l.ownp <;>
    simp [kindCheck, Loader.fenceCheck, passedDisposition, hd, hp]

theorem Loader.disp_of_fenced (l : Loader) (p : PortIx) {r : Req} {w : BitVec 16} (ha : r.misaligned = false)
    (hk : (l.classify p r).kind = .fenced w) :
    (l.classify p r).disp =
      if r.dir = .write ∧ w.getLsbD (4 * p.val + r.tag.val) = false then .answer .fenced else .forward := by
  have hw : l.areaOf r.firstByte ≠ .window := Loader.areaOf_ne_window (p := p) (by simp [hk])
  rw [l.classify_disp, l.failedCheck_of_aligned p ha, hk, l.fenceCheck_of_fenced p hw]
  simp only [kindCheck, Option.none_or, passedDisposition]
  split <;> rfl

theorem Loader.disp_of_guarded (l : Loader) (p : PortIx) {r : Req} {lease limit threshold : Nat} (ha : r.misaligned = false)
    (hk : (l.classify p r).kind = .guarded lease limit threshold) :
    (l.classify p r).disp =
      if r.len.isBurst = true then .answer .burstInGuard else if r.dir = .read then .guardedRead else .guardedWrite := by
  have hw : l.areaOf r.firstByte ≠ .window := Loader.areaOf_ne_window (p := p) (by simp [hk])
  rw [l.classify_disp, l.failedCheck_of_aligned p ha, hk, l.fenceCheck_of_not_fenced p hw (by simp)]
  cases hb : r.len.isBurst <;> cases hd : r.dir <;> simp [kindCheck, passedDisposition, hb]

theorem Loader.disp_of_tally (l : Loader) (p : PortIx) {r : Req} {mode : TallyMode} (ha : r.misaligned = false)
    (hk : (l.classify p r).kind = .tally mode) :
    (l.classify p r).disp =
      if r.len.isBurst = true then .answer .burstInGuard
      else if r.dir = .read then .tallyRead
      else if r.len.bytes < 4 then .answer .narrowTally
      else .tallyWrite := by
  have hw : l.areaOf r.firstByte ≠ .window := Loader.areaOf_ne_window (p := p) (by simp [hk])
  rw [l.classify_disp, l.failedCheck_of_aligned p ha, hk, l.fenceCheck_of_not_fenced p hw (by simp)]
  cases hb : r.len.isBurst <;> cases hd : r.dir <;> by_cases hn : r.len.bytes < 4 <;>
    simp [kindCheck, passedDisposition, hb, hd, hn]

/-! ### The statement -/

/-- Settles O26: the area comes from the equations of `areaOf`; the disposition, kind by kind, from the equations above. -/
theorem classifierDecision : Obligations.ClassifierDecision := by
  unfold Obligations.ClassifierDecision
  refine ⟨?area, ?reported, ?disposition⟩
  case area =>
    intro l a base hbase
    rw [Config.policyBase_getElem?, Option.some.injEq] at hbase
    subst hbase
    have hwindow := l.inWindow_iff a
    rw [Loader.policyBase] at hwindow
    refine ⟨?_, fun ⟨_, hdisjoint, _⟩ i => ?_, ?_⟩
    · rw [l.areaOf_eq_window_iff, hwindow]
    · rw [l.areaOf_eq_region_iff, hwindow, findIdx?_covers_iff hdisjoint]
      simp only [Region.covers_iff, granuleOf, Config.granuleBytes]
    · rw [l.areaOf_eq_defaultSpace_iff, hwindow]
      simp only [← Bool.not_eq_true, Region.covers_iff, granuleOf, Config.granuleBytes]
  case reported =>
    intro l p r
    rw [← Req.firstByte]
    refine ⟨?_, fun i h => ?_⟩
    · rintro (h | h) <;> simp [Loader.classify, h, Loader.kindOf, Area.index]
    · obtain ⟨x, hx⟩ := Loader.exists_region_of_areaOf h
      refine ⟨?_, x, hx, ?_⟩ <;> simp [Loader.classify, h, Loader.kindOf, Area.index, hx]
  case disposition =>
    intro l p r misaligned kind hmisaligned hkind
    replace hmisaligned : misaligned ↔ r.misaligned = true := by
      rw [hmisaligned]
      cases hlen : r.len <;> simp [Req.misaligned, hlen, or_assoc]
    rw [hmisaligned, hkind, ← Req.firstByte]
    cases ha : r.misaligned with
    | true => simp [l.disp_of_misaligned p ha]
    | false =>
      cases hk : (l.classify p r).kind with
      | openRegion =>
        rw [l.disp_of_open p ha hk]
        split <;> simp [*]
      | fenced w =>
        rw [l.disp_of_fenced p ha hk]
        have hw : l.areaOf r.firstByte ≠ .window := Loader.areaOf_ne_window (p := p) (by simp [hk])
        split <;> simp [*]
      | guarded lease limit threshold =>
        rw [l.disp_of_guarded p ha hk]
        have hw : l.areaOf r.firstByte ≠ .window := Loader.areaOf_ne_window (p := p) (by simp [hk])
        cases hlen : r.len <;> cases hd : r.dir <;> simp [hw, Length.isBurst]
      | tally mode =>
        rw [l.disp_of_tally p ha hk]
        have hw : l.areaOf r.firstByte ≠ .window := Loader.areaOf_ne_window (p := p) (by simp [hk])
        cases hlen : r.len with
        | single size => cases size <;> cases hd : r.dir <;> simp [hw, Length.isBurst, Length.bytes, Size.bytes]
        | burst extra => simp [hw, Length.isBurst]

end Sys2Proof.Machine
end

section
/-! PROOFS. The reservation table (chapter 2): the grant of a guarded read over the whole part, the read of a cell that is held or
reserved (R23 to R26), and the lease expiry (R31); O18 and O40. -/
namespace Sys2Proof.Machine

/-! ### Operations on different blocks commute

A record touches the capture unit and the attention logic, an issue the tally engine and the memory port; what stands in the other blocks
neither steers them nor is changed by them. -/

/-- An offer reads and changes the capture unit and the attention logic alone. -/
theorem State.offer_with (s : State) (r : Record) (ps : Four Port) (n : Fin 4) (m : Monitor) (t : TallyEngine) (mp : MemoryPort) :
    ({ s with ports := ps, pointer := n, monitor := m, tally := t, memory := mp } : State).offer r =
      { s.offer r with ports := ps, pointer := n, monitor := m, tally := t, memory := mp } := by
  unfold State.offer
  by_cases h : s.capture.freezesOn r = true <;> simp only [h] <;> rfl

@[inherit_doc State.offer_with]
theorem State.offerAll_with (s : State) (rs : List Record) (ps : Four Port) (n : Fin 4) (m : Monitor) (t : TallyEngine)
    (mp : MemoryPort) :
    ({ s with ports := ps, pointer := n, monitor := m, tally := t, memory := mp } : State).offerAll rs =
      { s.offerAll rs with ports := ps, pointer := n, monitor := m, tally := t, memory := mp } := by
  induction rs generalizing s with
  | nil => rfl
  | cons r rs ih =>
    calc
      _ = (({ s with ports := ps, pointer := n, monitor := m, tally := t, memory := mp } : State).offer r).offerAll rs := rfl
      _ = _ := by rw [State.offer_with, ih]; rfl

/-- What the monitor brings about reads and changes the monitor, the capture unit and the attention logic alone. -/
theorem State.takeMonitor_with (s : State) (x : MonitorStep) (ps : Four Port) (n : Fin 4) (t : TallyEngine) (mp : MemoryPort) :
    ({ s with ports := ps, pointer := n, tally := t, memory := mp } : State).takeMonitor x =
      { s.takeMonitor x with ports := ps, pointer := n, tally := t, memory := mp } := by
  have hoffer := State.offerAll_with { s with monitor := x.monitor } x.records ps n x.monitor t mp
  cases h : x.evicted <;> simp [State.takeMonitor, h, hoffer, State.setFlag]

/-- Without an eviction: the monitor's new state, and its records offered. -/
theorem State.takeMonitor_of_not_evicted (s : State) {x : MonitorStep} (h : x.evicted = false) :
    s.takeMonitor x = { s.offerAll x.records with monitor := x.monitor } := by
  have hoffer := s.offerAll_with x.records s.ports s.pointer x.monitor s.tally s.memory
  simp [State.takeMonitor, h, hoffer]

/-- The issue of a write half reads and changes the tally engine and the memory port alone, with the live memory timeout. -/
theorem State.issueWriteHalf_with (s : State) (ps : Four Port) (n : Fin 4) (m : Monitor) (c : Capture) (a : Attention) :
    ({ s with ports := ps, pointer := n, monitor := m, capture := c, attention := a } : State).issueWriteHalf =
      { s.issueWriteHalf with ports := ps, pointer := n, monitor := m, capture := c, attention := a } := by
  rcases s.issueWriteHalf_cases with ⟨hw, -⟩ | ⟨i, rest, t, hw, ht, -⟩ | ⟨i, rest, hw, ht, -⟩
  · simp [State.issueWriteHalf, hw]
  · simp [State.issueWriteHalf, hw, ht, State.issue]
  · simp [State.issueWriteHalf, hw, ht]

@[inherit_doc State.issueWriteHalf_with]
theorem State.issueWriteHalves_with (s : State) (ps : Four Port) (n : Fin 4) (m : Monitor) (c : Capture) (a : Attention) :
    ({ s with ports := ps, pointer := n, monitor := m, capture := c, attention := a } : State).issueWriteHalves =
      { s.issueWriteHalves with ports := ps, pointer := n, monitor := m, capture := c, attention := a } := by
  unfold State.issueWriteHalves
  dsimp only
  generalize s.tally.waiting = w
  induction w generalizing s with
  | nil => rfl
  | cons i rest ih => rw [List.foldl_cons, List.foldl_cons, State.issueWriteHalf_with, ih]

/-- The issue of a request, behind the waiting write halves, reads and changes the tally engine and the memory port alone, with the live
memory timeout. -/
theorem State.issueRequest_with (s : State) (g : Grant) (ps : Four Port) (n : Fin 4) (m : Monitor) (c : Capture) (a : Attention) :
    ({ s with ports := ps, pointer := n, monitor := m, capture := c, attention := a } : State).issueRequest g =
      { s.issueRequest g with ports := ps, pointer := n, monitor := m, capture := c, attention := a } := by
  unfold State.issueRequest
  rw [State.issueWriteHalves_with]
  rfl

/-- The state after an effect of the monitor, by the three blocks it changes. -/
theorem State.takeMonitor_eq_with (s : State) (x : MonitorStep) :
    s.takeMonitor x =
      { s with
        monitor := (s.takeMonitor x).monitor, capture := (s.takeMonitor x).capture, attention := (s.takeMonitor x).attention } := by
  rw [State.mk.injEq]
  simp

/-- The state after the issue of a request, by the two blocks it changes. -/
theorem State.issueRequest_eq_with (s : State) (g : Grant) :
    s.issueRequest g = { s with tally := (s.issueRequest g).tally, memory := (s.issueRequest g).memory } := by
  rw [State.mk.injEq]
  simp

/-- The monitor's effect and the issue of the request may be taken in either order. -/
theorem State.issueRequest_takeMonitor (s : State) (g : Grant) (x : MonitorStep) :
    (s.takeMonitor x).issueRequest g = (s.issueRequest g).takeMonitor x := by
  have hissue := s.issueRequest_with g s.ports s.pointer (s.takeMonitor x).monitor (s.takeMonitor x).capture
    (s.takeMonitor x).attention
  have htake := s.takeMonitor_with x s.ports s.pointer (s.issueRequest g).tally (s.issueRequest g).memory
  rw [← State.takeMonitor_eq_with] at hissue
  rw [← State.issueRequest_eq_with] at htake
  rw [hissue, htake, State.mk.injEq]
  simp

/-! ### The grant of a guarded read (R14, R23, R114) -/

theorem State.leaveQueue_eq (s : State) (g : Grant) :
    s.leaveQueue g =
      { s with
        ports := s.ports.set g.port { s.ports.get g.port with queue := (s.ports.get g.port).queue.tail }
        pointer := g.port + 1 } := by
  simp [State.leaveQueue, State.updPort]

/-- Leaving the queue does not steer what the grant does in the monitor and the memory port. -/
theorem State.takeMonitor_issueRequest_leaveQueue (s : State) (g : Grant) (x : MonitorStep) :
    ((s.leaveQueue g).issueRequest g).takeMonitor x = ((s.issueRequest g).takeMonitor x).leaveQueue g := by
  have hissue : (s.leaveQueue g).issueRequest g = (s.issueRequest g).leaveQueue g := by
    rw [State.leaveQueue_eq, s.issueRequest_with, State.leaveQueue_eq, State.mk.injEq]
    simp
  rw [hissue, State.leaveQueue_eq, State.takeMonitor_with, State.leaveQueue_eq, State.mk.injEq]
  simp

/-- A grant: the request leaves its queue, and its effects are taken. -/
theorem exec_admission {s : State} {g : Grant} (h : s.winner = some g) :
    exec .admission s = .next ((s.leaveQueue g).grantEffects g) := by
  change execAdmission s = _
  rw [execAdmission, h]

/-- A guarded read with nothing left to expire: the request leaves its queue for the memory port, and the monitor takes the read. -/
theorem exec_admission_of_guardedRead {s : State} {g : Grant} (hgrant : s.winner = some g) (hdisp : g.cls.disp = .guardedRead)
    (hnone : s.monitor.noneRunOut) :
    exec .admission s =
      .next { (s.issueRequest g).takeMonitor (s.readStep g) with
        ports := s.ports.set g.port { s.ports.get g.port with queue := (s.ports.get g.port).queue.tail }
        pointer := g.port + 1 } := by
  have hrunOuts : (s.leaveQueue g).takeRunOuts = s.leaveQueue g := State.takeRunOuts_of_noneRunOut hnone
  have heffects : (s.leaveQueue g).grantEffects g = ((s.leaveQueue g).issueRequest g).takeMonitor (s.readStep g) := by
    rw [← State.issueRequest_takeMonitor, State.grantEffects, hdisp, hrunOuts]
    rfl
  rw [exec_admission hgrant, heffects, State.takeMonitor_issueRequest_leaveQueue, State.leaveQueue_eq]
  simp

/-- A guarded read lies in a GUARDED region, whose lease and hold limit it takes (R12, R132). -/
theorem State.readStep_eq (s : State) {g : Grant} {region lease holdLimit threshold : Nat} (hregion : g.cls.region = .region region)
    (hkind : g.cls.kind = .guarded lease holdLimit threshold) :
    s.readStep g = s.monitor.guardedRead g.cls.agent g.cls.cell region lease holdLimit := by
  rw [State.readStep, hregion, hkind]
  rfl

/-! ### The entry of an agent on a cell (R21) -/

/-- The table holds one entry at most of an agent and a cell. -/
theorem Monitor.eq_of_agent_eq_of_cell_eq {m : Monitor} (h : m.tableLawful) {e f : TableEntry} (he : e ∈ m.table) (hf : f ∈ m.table)
    (hagent : e.agent = f.agent) (hcell : e.cell = f.cell) : e = f := by
  obtain ⟨_, hdistinct, _⟩ := h
  have hpair := List.pairwise_iff_getElem.1 hdistinct
  obtain ⟨i, hi, rfl⟩ := List.getElem_of_mem he
  obtain ⟨j, hj, rfl⟩ := List.getElem_of_mem hf
  rcases Nat.lt_trichotomy i j with hij | rfl | hji
  · exact absurd ⟨hagent, hcell⟩ (hpair i j hi hj hij)
  · rfl
  · exact absurd ⟨hagent.symm, hcell.symm⟩ (hpair j i hj hi hji)

/-- In a lawful table the entry looked up is the one that stands there. -/
theorem Monitor.entry_eq_some_iff {m : Monitor} (h : m.tableLawful) (a : Agent) (c : Addr) (e : TableEntry) :
    m.entry a c = some e ↔ e ∈ m.table ∧ e.agent = a ∧ e.cell = c := by
  refine ⟨Monitor.entry_some, ?_⟩
  rintro ⟨he, rfl, rfl⟩
  cases hf : m.entry e.agent e.cell with
  | none => exact absurd ⟨rfl, rfl⟩ ((m.entry_none_iff _ _).1 hf e he)
  | some f =>
    obtain ⟨hfm, hagent, hcell⟩ := Monitor.entry_some hf
    rw [Monitor.eq_of_agent_eq_of_cell_eq h hfm he hagent hcell]

/-- Taking the entry of an agent and a cell from a lawful table takes that entry alone. -/
theorem Monitor.removeEntry_table_of_mem {m : Monitor} (h : m.tableLawful) {e : TableEntry} (he : e ∈ m.table) :
    (m.removeEntry e.agent e.cell).table = m.table.filter (fun x => x != e) := by
  rw [Monitor.removeEntry_table]
  refine List.filter_congr fun x hx => ?_
  have hisOf : x.isOf e.agent e.cell = true ↔ x = e := by
    rw [TableEntry.isOf_iff]
    exact ⟨fun ⟨ha, hc⟩ => Monitor.eq_of_agent_eq_of_cell_eq h hx he ha hc, by rintro rfl; exact ⟨rfl, rfl⟩⟩
  rw [bne, Bool.eq_iff_iff.2 (hisOf.trans beq_iff_eq.symm)]

/-! ### Guarded reads of a cell that is held or reserved (R23 to R26) -/

theorem HoldSlot.cell?_eq_some_iff (h : HoldSlot) (c : Addr) : h.cell? = some c ↔ ∃ b r n, h = .holding b c r n := by
  cases h <;> simp [HoldSlot.cell?]

theorem Monitor.cellHeld_iff (m : Monitor) (c : Addr) : m.cellHeld c = true ↔ ∃ i b r n, m.slots.get i = .holding b c r n := by
  simp only [Monitor.cellHeld, List.any_eq_true, Four.mem_toList, beq_iff_eq]
  constructor
  · rintro ⟨_, ⟨i, rfl⟩, hcell⟩
    exact ⟨i, (HoldSlot.cell?_eq_some_iff _ c).1 hcell⟩
  · rintro ⟨i, hholding⟩
    exact ⟨_, ⟨i, rfl⟩, (HoldSlot.cell?_eq_some_iff _ c).2 hholding⟩

/-- Case 2 (R25): the read of a cell that the agent holds. -/
theorem Monitor.guardedRead_of_holding {m : Monitor} {a : Agent} {c : Addr} (h : ∃ i r n, m.slots.get i = .holding a c r n)
    (region lease holdLimit : Nat) : m.guardedRead a c region lease holdLimit = { monitor := m, records := [] } := by
  obtain ⟨i, r, n, hi⟩ := h
  have hheld : m.cellHeld c = true := (m.cellHeld_iff c).2 ⟨i, a, r, n, hi⟩
  have hholds : m.findSlot (·.holds a c) ≠ none := fun hnone =>
    (m.not_holding_iff a c).2 ((m.findSlot_none _).1 hnone) i r n hi
  rcases m.guardedRead_cases a c region lease holdLimit with
    ⟨_, -, hfree, -⟩ | ⟨-, ⟨_, -, hread⟩ | ⟨_, hnone, -⟩ | ⟨hnone, -⟩⟩
  · rw [hheld] at hfree
    cases hfree
  · exact hread
  · exact absurd hnone hholds
  · exact absurd hnone hholds

/-- Case 3 (R26): the read of a cell on which the agent has an entry, where its entitlement, if it has one, does not convert. -/
theorem Monitor.guardedRead_of_entry {m : Monitor} (htable : m.tableLawful) (hholders : m.holdersLawful) {e : TableEntry}
    (he : e ∈ m.table)
    (hstay : (∀ i n, m.slots.get i ≠ .entitled e.agent n) ∨ ∃ i b r n, m.slots.get i = .holding b e.cell r n)
    (region lease holdLimit : Nat) :
    m.guardedRead e.agent e.cell region lease holdLimit = { monitor := m.refresh e lease, records := [] } := by
  have hentry : m.entry e.agent e.cell = some e := (Monitor.entry_eq_some_iff htable _ _ e).2 ⟨he, rfl, rfl⟩
  rcases m.guardedRead_cases e.agent e.cell region lease holdLimit with
    ⟨i, hentitled, hfree, -⟩ | ⟨-, ⟨i, hholds, -⟩ | ⟨f, -, hf, hread⟩ | ⟨-, hnone, -⟩⟩
  · rcases hstay with hnot | hheld
    · rw [m.not_entitled_iff, ← m.findSlot_none (·.entitles e.agent), hentitled] at hnot
      cases hnot
    · rw [← m.cellHeld_iff, hfree] at hheld
      cases hheld
  · have hnone := hholders i _ _ (Monitor.findSlot_some hholds).1
    rw [hentry] at hnone
    cases hnone
  · rw [hentry, Option.some.injEq] at hf
    rw [hread, hf]
  · rw [hentry] at hnone
    cases hnone

/-- Settles O18: the grant's equation with the second and the third case of R23. -/
theorem guardedReadKeepsOrRefreshes : Obligations.GuardedReadKeepsOrRefreshes := by
  unfold Obligations.GuardedReadKeepsOrRefreshes
  intro s g region lease holdLimit threshold hgrant hdisp hregion hkind ⟨htable, _, _, _, hholders, _⟩ hnone
  have hexec := exec_admission_of_guardedRead hgrant hdisp hnone
  rw [s.readStep_eq hregion hkind] at hexec
  refine ⟨fun hholds => ?_, fun e he hagent hcell hstay => ?_⟩
  · rw [hexec, Monitor.guardedRead_of_holding hholds, ← s.issueRequest_monitor g, State.takeMonitor_nothing]
  · rw [← hagent, ← hcell] at hexec hstay ⊢
    rw [hexec, Monitor.guardedRead_of_entry htable hholders he hstay]
    rfl

/-! ### The lease expiry (R31) -/

/-- An entry at 0 expires: it leaves the table with a loss entry and a record. -/
theorem Monitor.leaseExpiry_of_ranOut {m : Monitor} (htable : m.tableLawful) {e : TableEntry} (he : e ∈ m.table)
    (hlease : e.lease = 0) :
    m.leaseExpiry e.agent e.cell =
      { monitor := (m.removeEntry e.agent e.cell).lose e.agent e.cell .expired
        records := [.ofExpire e.agent e.cell (.region e.region)] } := by
  have hentry : m.entry e.agent e.cell = some e := (Monitor.entry_eq_some_iff htable _ _ e).2 ⟨he, rfl, rfl⟩
  rcases m.leaseExpiry_cases e.agent e.cell with ⟨f, hf, -, hexpiry⟩ | ⟨hrunning, -⟩
  · rw [hentry, Option.some.injEq] at hf
    rw [hexpiry, hf]
  · exact absurd hlease (hrunning e hentry)

/-- Settles O40: the monitor's expiry, taken over the whole part as one record and one new state of the monitor. -/
theorem leaseExpiryResult : Obligations.LeaseExpiryResult := by
  unfold Obligations.LeaseExpiryResult
  intro s e htable he hlease
  have hexec : exec (.leaseExpiry e.agent e.cell) s = .next (s.leaseExpiry e.agent e.cell) := rfl
  refine ⟨(s.monitor.removeEntry e.agent e.cell).lose e.agent e.cell .expired, ?_, ?_, rfl, rfl, fun a => ?_⟩
  · rw [hexec, State.leaseExpiry, Monitor.leaseExpiry_of_ranOut htable he hlease, State.takeMonitor_of_not_evicted _ rfl]
    rfl
  · rw [Monitor.lose_table, Monitor.removeEntry_table_of_mem htable he]
  · rw [Monitor.ctx_lose]
    by_cases ha : a = e.agent
    · subst ha
      rfl
    · rw [if_neg ha, if_neg ha, Monitor.removeEntry_ctx]

end Sys2Proof.Machine
end

section
/-! PROOFS. Refusals and escalation (chapters 3 and 4): the grant of a refused guarded write over the whole part (R44, R55), the monitor that
refuses (R47, R55, R56), and the place an escalation gives the agent (R66 to R68); then O24. -/
namespace Sys2Proof

/-- Of two writes at one place the second stands. -/
@[simp] theorem Four.set_set {α : Type} (f : Four α) (i : Fin 4) (x y : α) : (f.set i x).set i y = f.set i y :=
  Four.eq_of_get fun j => by
    by_cases h : j = i
    · simp [h]
    · simp [Four.get_set, h]

end Sys2Proof

namespace Sys2Proof.Machine

/-! ### The grant of a refused guarded write (R44, R55, R114) -/

/-- A request answered at its grant: it leaves the queue, and its order-list entry takes the response. -/
theorem State.respond_leaveQueue (s : State) (g : Grant) (k : Cause) :
    (s.leaveQueue g).respond g.port g.acc.id k [] =
      { s with ports := s.ports.set g.port ((s.ports.get g.port).answeredHead g.acc.id k), pointer := g.port + 1 } := by
  simp [State.leaveQueue_eq, State.respond, State.updPort, Port.answeredHead]

/-- A refused guarded write with nothing left to expire: the request is answered, and the monitor takes the refusal. -/
theorem exec_admission_of_refusedWrite {s : State} {g : Grant} {x : MonitorStep} {k : Cause} (hgrant : s.winner = some g)
    (hdisp : g.cls.disp = .guardedWrite) (hnone : s.monitor.noneRunOut) (hwrite : s.writeStep g = { step := x, refusal := some k })
    (hevicted : x.evicted = false) :
    exec .admission s =
      .next { s.offerAll x.records with
        ports := s.ports.set g.port ((s.ports.get g.port).answeredHead g.acc.id k)
        pointer := g.port + 1
        monitor := x.monitor } := by
  have hrunOuts : (s.leaveQueue g).takeRunOuts = s.leaveQueue g := State.takeRunOuts_of_noneRunOut hnone
  have hstep : (s.leaveQueue g).writeStep g = { step := x, refusal := some k } := hwrite
  have heffects : (s.leaveQueue g).grantEffects g = ((s.leaveQueue g).respond g.port g.acc.id k []).takeMonitor x := by
    simp only [State.grantEffects, hdisp, hrunOuts, State.takeGuardedWrite, hstep]
  have htake := s.takeMonitor_with x (s.ports.set g.port ((s.ports.get g.port).answeredHead g.acc.id k)) (g.port + 1) s.tally s.memory
  rw [exec_admission hgrant, heffects, State.respond_leaveQueue, htake, State.takeMonitor_of_not_evicted s hevicted]
  simp

/-! ### The monitor that refuses (R47, R55, R56) -/

/-- The monitor that has used up the loss entry that gave a refusal its cause (R47). -/
def Monitor.useUpLoss (m : Monitor) (a : Agent) (c : Addr) (k : Cause) : Monitor :=
  if m.judge a c = .lost k then m.forget a c else m

@[simp] theorem Monitor.useUpLoss_table (m : Monitor) (a : Agent) (c : Addr) (k : Cause) : (m.useUpLoss a c k).table = m.table := by
  unfold Monitor.useUpLoss; split <;> rfl
@[simp] theorem Monitor.useUpLoss_slots (m : Monitor) (a : Agent) (c : Addr) (k : Cause) : (m.useUpLoss a c k).slots = m.slots := by
  unfold Monitor.useUpLoss; split <;> rfl
@[simp] theorem Monitor.useUpLoss_waitList (m : Monitor) (a : Agent) (c : Addr) (k : Cause) :
    (m.useUpLoss a c k).waitList = m.waitList := by
  unfold Monitor.useUpLoss; split <;> rfl

theorem Monitor.ctx_useUpLoss (m : Monitor) (a b : Agent) (c : Addr) (k : Cause) :
    (m.useUpLoss a c k).ctx b =
      if b = a then
        { m.ctx a with
          loss := if m.judge a c = .lost k then (m.ctx a).loss.filter (fun x => x.cell != c) else (m.ctx a).loss }
      else m.ctx b := by
  unfold Monitor.useUpLoss
  by_cases hlost : m.judge a c = .lost k
  · simp [hlost, Monitor.ctx_forget]
  · by_cases hb : b = a <;> simp [hlost, hb]

/-- A write on a lost cell or without a reservation is refused with the cause of its case, by the threshold of its region and the live
entitlement limit (R43, R47, R48). -/
theorem State.writeStep_of_refused {s : State} {g : Grant} {lease holdLimit threshold : Nat} {k : Cause}
    (hkind : g.cls.kind = .guarded lease holdLimit threshold)
    (hjudge : s.monitor.judge g.cls.agent g.cls.cell = .lost k
      ∨ s.monitor.judge g.cls.agent g.cls.cell = .noReservation ∧ k = .noReservation) :
    s.writeStep g =
      { step := (s.monitor.useUpLoss g.cls.agent g.cls.cell k).refuse g.cls.agent g.cls.cell g.cls.region k threshold
          s.loader.entitlementLimit
        refusal := some k } := by
  rcases hjudge with hlost | ⟨hnone, rfl⟩
  · simp [State.writeStep, hkind, RegionKind.threshold, Monitor.guardedWrite, Monitor.useUpLoss, hlost]
  · simp [State.writeStep, hkind, RegionKind.threshold, Monitor.guardedWrite, Monitor.useUpLoss, hnone]

theorem Cause.raisesStreak_iff (k : Cause) :
    k.raisesStreak = true ↔ k ∈ [Cause.noReservation, .broken, .expired, .evicted, .displaced] := by
  cases k <;> simp [Cause.raisesStreak]

/-- The monitor in which a refusal that raises the streak has been counted (R55, R56). -/
def Monitor.countRefusal (m : Monitor) (a : Agent) (k : Cause) : Monitor :=
  m.updCtx a fun x => { x.countRefusal with verdict := k, streak := bump Config.streakTop x.streak }

@[simp] theorem Monitor.countRefusal_table (m : Monitor) (a : Agent) (k : Cause) : (m.countRefusal a k).table = m.table := rfl
@[simp] theorem Monitor.countRefusal_slots (m : Monitor) (a : Agent) (k : Cause) : (m.countRefusal a k).slots = m.slots := rfl
@[simp] theorem Monitor.countRefusal_waitList (m : Monitor) (a : Agent) (k : Cause) : (m.countRefusal a k).waitList = m.waitList := rfl
theorem Monitor.ctx_countRefusal (m : Monitor) (a b : Agent) (k : Cause) :
    (m.countRefusal a k).ctx b =
      if b = a then { (m.ctx a).countRefusal with verdict := k, streak := bump Config.streakTop (m.ctx a).streak }
      else m.ctx b := Monitor.ctx_updCtx m a b _

/-- The context of an agent after a counted refusal whose cause, if it was a loss entry's, is used up. -/
theorem Monitor.ctx_countRefusal_useUpLoss (m : Monitor) (a b : Agent) (c : Addr) (k : Cause) :
    ((m.useUpLoss a c k).countRefusal a k).ctx b =
      if b = a then
        { (m.ctx a).countRefusal with
          verdict := k
          streak := bump Config.streakTop (m.ctx a).streak
          loss := if m.judge a c = .lost k then (m.ctx a).loss.filter (fun x => x.cell != c) else (m.ctx a).loss }
      else m.ctx b := by
  rw [Monitor.ctx_countRefusal, Monitor.ctx_useUpLoss, Monitor.ctx_useUpLoss]
  by_cases hb : b = a <;> simp [hb, AgentCtx.countRefusal]

/-- A refusal that raises the streak: it is counted, and the escalation check follows its record. -/
theorem Monitor.refuse_of_raisesStreak {k : Cause} (h : k.raisesStreak = true) (m : Monitor) (a : Agent) (c : Addr) (region : RegionIx)
    (threshold limit : Nat) :
    m.refuse a c region k threshold limit =
      { (m.countRefusal a k).escalationCheck a threshold limit with
        records := .ofRefuse a c region k :: ((m.countRefusal a k).escalationCheck a threshold limit).records } := by
  simp only [Monitor.refuse, h, if_true]
  rfl

/-! ### The place an escalation gives (R66 to R68) -/

/-- Where a FREE slot is found and none stands below slot `i`, which is FREE, the slot found is `i`. -/
theorem Monitor.eq_of_findSlot_isFree {m : Monitor} {i j : SlotIx} (hfound : m.findSlot (·.isFree) = some j)
    (hfree : m.slots.get i = .free) (hlowest : ∀ l, l < i → m.slots.get l ≠ .free) : j = i := by
  obtain ⟨hj, hbelow⟩ := Monitor.findSlot_some hfound
  rcases Nat.lt_trichotomy j.val i.val with hlt | heq | hgt
  · exact absurd ((HoldSlot.isFree_iff _).1 hj) (hlowest j hlt)
  · exact Fin.ext heq
  · have hnot := hbelow i hgt
    rw [(HoldSlot.isFree_iff _).2 hfree] at hnot
    cases hnot

theorem Monitor.findSlot_isFree_eq_none_iff (m : Monitor) : m.findSlot (·.isFree) = none ↔ ∀ i, m.slots.get i ≠ .free := by
  rw [Monitor.findSlot_none]
  simp only [← Bool.not_eq_true, HoldSlot.isFree_iff, ne_eq]

/-- The context of an agent that an escalation has placed, whatever slot or place in the wait list it takes (R66 to R68). -/
theorem Monitor.ctx_placed (m : Monitor) (a b : Agent) (st : AgentState) :
    ((m.updCtx a fun x => { x with streak := 0 }).setAgentState a st).ctx b =
      if b = a then { m.ctx a with state := st, streak := 0 } else m.ctx b := by
  by_cases hb : b = a <;> simp [Monitor.ctx_setAgentState, Monitor.ctx_updCtx, hb]

/-- An escalation: the agent is ENTITLED in the lowest-numbered FREE slot, or WAITING at the end of the wait list where no slot is FREE. -/
theorem Monitor.escalationCheck_places {m : Monitor} {a : Agent} {threshold : Nat} (hthreshold : threshold ≠ 0)
    (hnormal : (m.ctx a).state = .normal) (hreached : threshold ≤ (m.ctx a).streak) (limit : Nat) :
    ∃ (n : Monitor) (rs : List Record) (st : AgentState),
      m.escalationCheck a threshold limit = { monitor := n, records := rs }
      ∧ n.table = m.table
      ∧ (∀ i, m.slots.get i = .free → (∀ j, j < i → m.slots.get j ≠ .free) →
          rs = [.ofEntitle a] ∧ st = .entitled ∧ n.waitList = m.waitList ∧ n.slots = m.slots.set i (.entitled a limit))
      ∧ ((∀ i, m.slots.get i ≠ .free) → rs = [] ∧ st = .waiting ∧ n.waitList = m.waitList ++ [a] ∧ n.slots = m.slots)
      ∧ ∀ b, n.ctx b = if b = a then { m.ctx a with state := st, streak := 0 } else m.ctx b := by
  rcases m.escalationCheck_cases a threshold limit with ⟨hnot, -⟩ | ⟨-, ⟨j, hfound, heq⟩ | ⟨hnone, heq⟩⟩
  · exact absurd ⟨hthreshold, hnormal, hreached⟩ hnot
  · refine ⟨_, _, .entitled, heq, rfl, fun i hfree hlowest => ?_, fun hfull => ?_, fun b => m.ctx_placed a b .entitled⟩
    · rw [Monitor.eq_of_findSlot_isFree hfound hfree hlowest]
      exact ⟨rfl, rfl, rfl, rfl⟩
    · rw [m.findSlot_isFree_eq_none_iff.2 hfull] at hfound
      cases hfound
  · refine ⟨_, _, .waiting, heq, rfl, fun i hfree _ => ?_, fun _ => ⟨rfl, rfl, rfl, rfl⟩, fun b => m.ctx_placed a b .waiting⟩
    exact absurd hfree (m.findSlot_isFree_eq_none_iff.1 hnone i)

/-- Settles O24: the counted refusal reaches the threshold, so the check behind it places the agent. -/
theorem escalationPlacesAgent : Obligations.EscalationPlacesAgent := by
  unfold Obligations.EscalationPlacesAgent
  intro s g lease holdLimit threshold k streak hgrant hdisp hkind hnone hjudge hcause hstreak hthreshold hnormal hreached
  subst hstreak
  have hcounted := s.monitor.ctx_countRefusal_useUpLoss g.cls.agent g.cls.agent g.cls.cell k
  rw [if_pos rfl] at hcounted
  obtain ⟨m, rs, st, hcheck, htable, hslot, hwait, hctx⟩ := Monitor.escalationCheck_places hthreshold
    (by rw [hcounted]; exact hnormal) (by rw [hcounted]; exact hreached) s.loader.entitlementLimit
  have hwrite := State.writeStep_of_refused (s := s) hkind hjudge
  rw [Monitor.refuse_of_raisesStreak (k.raisesStreak_iff.2 hcause), hcheck] at hwrite
  refine ⟨m, rs, st, exec_admission_of_refusedWrite hgrant hdisp hnone hwrite rfl, ?_, ?_, ?_, fun a => ?_⟩
  · simpa using htable
  · simpa using hslot
  · simpa using hwait
  · rw [hctx, hcounted, Monitor.ctx_countRefusal_useUpLoss]
    by_cases ha : a = g.cls.agent
    · subst ha
      simp only [if_true]
      rfl
    · simp only [ha, if_false]

end Sys2Proof.Machine
end

section
/-! PROOFS. The policy block (sections 7.3 and 11.2): the fields of a run of bytes, the sum of R133, the descriptors of R132 with the regions
they give, and the validity of R134; then O34. -/
namespace Sys2Proof

/-! ### Fields of a run of bytes (R178) -/

theorem leNat_lt (bytes : List Byte) : leNat bytes < 256 ^ bytes.length := by
  induction bytes with
  | nil => simp [leNat]
  | cons b bytes ih =>
    rw [leNat, List.length_cons, Nat.pow_succ]
    omega

theorem leField_lt (bytes : List Byte) (off n : Nat) : leField bytes off n < 256 ^ n :=
  Nat.lt_of_lt_of_le (leNat_lt _) (Nat.pow_le_pow_right (by decide) (List.length_take_le _ _))

theorem leField_drop (bytes : List Byte) (k off n : Nat) : leField (bytes.drop k) off n = leField bytes (k + off) n := by
  simp [leField]

theorem leField_take (bytes : List Byte) {k off n : Nat} (h : off + n ≤ k) : leField (bytes.take k) off n = leField bytes off n := by
  rw [leField, List.drop_take, List.take_take, Nat.min_eq_left (by omega), leField]

theorem leField_succ (bytes : List Byte) (off n : Nat) :
    leField bytes off (n + 1) = leField bytes off 1 + 256 * leField bytes (off + 1) n := by
  simp only [leField, ← List.drop_drop (i := 1) (j := off)]
  cases bytes.drop off <;> simp [leNat]

end Sys2Proof

namespace Sys2Proof.Machine

/-! ### The sum of R133 -/

/-- The words are the fields of four bytes, where the length is a whole number of them. -/
theorem wordsOf_eq_map_leField (n : Nat) (bytes : List Byte) (h : bytes.length = 4 * n) :
    wordsOf bytes = (List.range n).map fun k => leField bytes (4 * k) 4 := by
  induction n generalizing bytes with
  | zero => rw [List.length_eq_zero_iff.1 h]; rfl
  | succ n ih =>
    obtain ⟨b0, b1, b2, b3, rest, rfl⟩ : ∃ b0 b1 b2 b3 rest, bytes = b0 :: b1 :: b2 :: b3 :: rest := by
      match bytes, h with
      | b0 :: b1 :: b2 :: b3 :: rest, _ => exact ⟨b0, b1, b2, b3, rest, rfl⟩
    have hrest : rest.length = 4 * n := by simpa [Nat.mul_succ] using h
    have hshift (k : Nat) : leField rest (4 * k) 4 = leField (b0 :: b1 :: b2 :: b3 :: rest) (4 * (k + 1)) 4 := by
      rw [Nat.mul_succ, Nat.add_comm, ← leField_drop]
      rfl
    rw [wordsOf, ih rest hrest, List.range_succ_eq_map, List.map_cons, List.map_map]
    exact congrArg (leNat [b0, b1, b2, b3] :: ·) (List.map_congr_left fun k _ => hshift k)

theorem blockSum_eq (n : Nat) (bytes : List Byte) (h : bytes.length = 4 * n) :
    blockSum bytes = ((List.range n).map fun k => leField bytes (4 * k) 4).sum % 2 ^ 32 := by
  rw [blockSum, wordsOf_eq_map_leField n bytes h, ← List.sum_eq_foldl]

/-! ### Descriptors (R132, 11.2)

A descriptor is read through `p`: `p off n` is the unsigned integer of the `n` bytes at its offset `off`. -/

/-- What condition 6 of R134 asks of the kind and its parameters. -/
def KindConditions (p : Nat → Nat → Nat) : Prop :=
  p 8 1 ≤ 3
    ∧ (if p 8 1 = 2 then p 9 1 ≤ 1 else p 9 1 = 0)
    ∧ (if p 8 1 = 1 then p 10 1 ≤ 15 ∧ 1 ≤ p 12 2 ∧ p 12 2 ≤ 4095 ∧ 1 ≤ p 14 2 ∧ p 14 2 ≤ 4095
      else p 10 1 = 0 ∧ p 12 2 = 0 ∧ p 14 2 = 0)
    ∧ (p 8 1 ≠ 3 → p 16 2 = 0)

/-- What condition 6 of R134 asks of a descriptor. -/
def DescriptorConditions (p : Nat → Nat → Nat) : Prop :=
  (p 0 4 < 0x100000 ∧ 1 ≤ p 4 4 ∧ p 0 4 + p 4 4 ≤ 0x100000) ∧ KindConditions p ∧ p 11 1 = 0 ∧ p 18 6 = 0

/-- The kind holds the fields of the descriptor. -/
def RegionKind.HoldsFields (k : RegionKind) (p : Nat → Nat → Nat) : Prop :=
  match k with
  | .openRegion => p 8 1 = 0
  | .guarded lease hold threshold => p 8 1 = 1 ∧ lease = p 12 2 ∧ hold = p 14 2 ∧ threshold = p 10 1
  | .tally mode => p 8 1 = 2 ∧ p 9 1 = (match mode with | .wrap => 0 | .saturate => 1)
  | .fenced writers => p 8 1 = 3 ∧ writers.toNat = p 16 2

/-- The region holds the fields of the descriptor. -/
def Region.HoldsFields (r : Region) (p : Nat → Nat → Nat) : Prop := r.base = p 0 4 ∧ r.length = p 4 4 ∧ r.kind.HoldsFields p

theorem descriptorKind_isSome_iff (d : List Byte) : (descriptorKind d).isSome = true ↔ KindConditions (leField d) := by
  unfold descriptorKind KindConditions
  split
  next hkind => simp [hkind, Option.isSome_ite, and_assoc]
  next hkind => simp [hkind, Option.isSome_ite, and_assoc]
  next hkind => simp [hkind, Option.isSome_ite, and_assoc]
  next hkind => simp [hkind, Option.isSome_ite]
  next h0 h1 h2 h3 =>
    have hlarge : ¬leField d 8 1 ≤ 3 := by
      rw [imp_false] at h0 h1 h2 h3
      omega
    simp [hlarge]

theorem descriptorKind_holdsFields {d : List Byte} {k : RegionKind} (h : descriptorKind d = some k) :
    k.HoldsFields (leField d) := by
  unfold descriptorKind at h
  split at h
  next hkind =>
    obtain ⟨-, ⟨⟩⟩ := Option.ite_none_right_eq_some.1 h
    exact hkind
  next hkind =>
    obtain ⟨-, ⟨⟩⟩ := Option.ite_none_right_eq_some.1 h
    exact ⟨hkind, rfl, rfl, rfl⟩
  next hkind =>
    obtain ⟨⟨hmode, -⟩, ⟨⟩⟩ := Option.ite_none_right_eq_some.1 h
    refine ⟨hkind, ?_⟩
    by_cases hwrap : leField d 9 1 = 0
    · rw [if_pos hwrap, hwrap]
    · rw [if_neg hwrap]
      exact Nat.le_antisymm hmode (Nat.pos_of_ne_zero hwrap)
  next hkind =>
    obtain ⟨-, ⟨⟩⟩ := Option.ite_none_right_eq_some.1 h
    exact ⟨hkind, (BitVec.toNat_ofNat _ _).trans (Nat.mod_eq_of_lt (leField_lt d 16 2))⟩
  next => cases h

theorem descriptorRegion_isSome_iff (d : List Byte) : (descriptorRegion d).isSome = true ↔ DescriptorConditions (leField d) := by
  unfold descriptorRegion DescriptorConditions
  rw [← descriptorKind_isSome_iff, show Config.granules = 0x100000 from rfl]
  cases descriptorKind d <;> simp [Option.isSome_ite, and_assoc]

theorem descriptorRegion_holdsFields {d : List Byte} {r : Region} (h : descriptorRegion d = some r) :
    r.HoldsFields (leField d) := by
  unfold descriptorRegion at h
  obtain ⟨-, h⟩ := Option.ite_none_right_eq_some.1 h
  obtain ⟨k, hk, rfl⟩ := Option.map_eq_some_iff.1 h
  exact ⟨rfl, rfl, descriptorKind_holdsFields hk⟩

/-! ### The region table (conditions 6 to 8 of R134) -/

/-- Field `n` bytes long at offset `off` of descriptor `i`, of a run of descriptors. -/
def descriptorField (bytes : List Byte) (i off n : Nat) : Nat := leField bytes (24 * i + off) n

theorem descriptorField_succ (bytes : List Byte) (i : Nat) :
    descriptorField bytes (i + 1) = descriptorField (bytes.drop 24) i := by
  funext off n
  rw [descriptorField, descriptorField, leField_drop]
  congr 1
  omega

theorem descriptorConditions_take_iff (bytes : List Byte) :
    DescriptorConditions (leField (bytes.take 24)) ↔ DescriptorConditions (descriptorField bytes 0) := by
  simp [DescriptorConditions, KindConditions, descriptorField, leField_take]

theorem Region.holdsFields_take_iff (r : Region) (bytes : List Byte) :
    r.HoldsFields (leField (bytes.take 24)) ↔ r.HoldsFields (descriptorField bytes 0) := by
  simp [Region.HoldsFields, RegionKind.HoldsFields, descriptorField, leField_take]

theorem descriptorRegions_succ_eq_some_iff (n : Nat) (bytes : List Byte) (rs : List Region) :
    descriptorRegions (n + 1) bytes = some rs ↔
      ∃ r qs, descriptorRegion (bytes.take 24) = some r ∧ descriptorRegions n (bytes.drop 24) = some qs ∧ r :: qs = rs := by
  rw [descriptorRegions, Config.headerBytes]
  cases descriptorRegion (bytes.take 24) <;> cases descriptorRegions n (bytes.drop 24) <;> simp

theorem descriptorRegions_isSome_iff (n : Nat) (bytes : List Byte) :
    (descriptorRegions n bytes).isSome = true ↔ ∀ i, i < n → DescriptorConditions (descriptorField bytes i) := by
  induction n generalizing bytes with
  | zero => simp [descriptorRegions]
  | succ n ih =>
    have hsplit : (descriptorRegions (n + 1) bytes).isSome = true ↔
        (descriptorRegion (bytes.take 24)).isSome = true ∧ (descriptorRegions n (bytes.drop 24)).isSome = true := by
      simp only [Option.isSome_iff_exists, descriptorRegions_succ_eq_some_iff]
      exact ⟨fun ⟨_, r, qs, hr, hqs, _⟩ => ⟨⟨r, hr⟩, qs, hqs⟩, fun ⟨⟨r, hr⟩, qs, hqs⟩ => ⟨_, r, qs, hr, hqs, rfl⟩⟩
    rw [hsplit, descriptorRegion_isSome_iff, descriptorConditions_take_iff, ih, Nat.forall_lt_succ_left]
    simp only [descriptorField_succ]

/-- The regions of the descriptors, one for each, in order. -/
theorem descriptorRegions_holdsFields {n : Nat} {bytes : List Byte} {rs : List Region} (h : descriptorRegions n bytes = some rs) :
    rs.length = n ∧ ∀ (i : Nat) (r : Region), rs[i]? = some r → r.HoldsFields (descriptorField bytes i) := by
  induction n generalizing bytes rs with
  | zero => cases h; simp
  | succ n ih =>
    obtain ⟨r, qs, hr, hqs, rfl⟩ := (descriptorRegions_succ_eq_some_iff n bytes rs).1 h
    obtain ⟨hlength, hfields⟩ := ih hqs
    refine ⟨congrArg (· + 1) hlength, fun i q hq => ?_⟩
    cases i with
    | zero =>
      cases hq
      exact (r.holdsFields_take_iff bytes).1 (descriptorRegion_holdsFields hr)
    | succ i =>
      rw [descriptorField_succ]
      exact hfields i q hq

/-- Regions of at least one granule overlap where both cover some granule. -/
theorem Region.overlaps_iff {r q : Region} (hr : 1 ≤ r.length) (hq : 1 ≤ q.length) :
    r.overlaps q = true ↔ ∃ g, r.covers g = true ∧ q.covers g = true := by
  constructor
  · intro h
    simp only [Region.overlaps, Bool.and_eq_true, decide_eq_true_eq] at h
    refine ⟨max r.base q.base, ?_⟩
    simp only [Region.covers_iff]
    omega
  · rintro ⟨g, hrg, hqg⟩
    exact Region.overlaps_of_covers hrg hqg

theorem noOverlaps_iff_covers {rs : List Region} (hpos : ∀ r ∈ rs, 1 ≤ r.length) :
    noOverlaps rs = true ↔ ∀ i j g (hij : i < j) (hj : j < rs.length), ¬(rs[i].covers g = true ∧ rs[j].covers g = true) := by
  rw [noOverlaps_iff_pairwise, List.pairwise_iff_getElem]
  simp only [← Bool.not_eq_true]
  constructor
  · intro h i j g hij hj hboth
    exact h i j (Nat.lt_trans hij hj) hj hij (Region.overlaps_of_covers hboth.1 hboth.2)
  · intro h i j hi hj hij hoverlaps
    obtain ⟨g, hboth⟩ := (Region.overlaps_iff (hpos _ (List.getElem_mem hi)) (hpos _ (List.getElem_mem hj))).1 hoverlaps
    exact h i j g hij hj hboth

/-- Descriptor `i` declares granule `g`. -/
def DescriptorCovers (bytes : List Byte) (i g : Nat) : Prop :=
  descriptorField bytes i 0 4 ≤ g ∧ g < descriptorField bytes i 0 4 + descriptorField bytes i 4 4

theorem covers_iff_descriptorCovers {n : Nat} {bytes : List Byte} {rs : List Region} (h : descriptorRegions n bytes = some rs)
    {i : Nat} (hi : i < rs.length) (g : Nat) : rs[i].covers g = true ↔ DescriptorCovers bytes i g := by
  obtain ⟨hbase, hlength, -⟩ := (descriptorRegions_holdsFields h).2 i _ (List.getElem?_eq_getElem hi)
  rw [Region.covers_iff, hbase, hlength, DescriptorCovers]

theorem noOverlaps_iff_descriptorCovers {n : Nat} {bytes : List Byte} {rs : List Region}
    (h : descriptorRegions n bytes = some rs) :
    noOverlaps rs = true ↔
      ∀ i j g, i < j → j < n → ¬(DescriptorCovers bytes i g ∧ DescriptorCovers bytes j g) := by
  obtain ⟨rfl, hfields⟩ := descriptorRegions_holdsFields h
  have hpos : ∀ r ∈ rs, 1 ≤ r.length := fun r hr => by
    obtain ⟨i, hi⟩ := List.mem_iff_getElem?.1 hr
    obtain ⟨-, hlength, -⟩ := hfields i r hi
    obtain ⟨⟨-, hone, -⟩, -⟩ := (descriptorRegions_isSome_iff _ bytes).1 (Option.isSome_of_eq_some h) i
      (List.getElem?_eq_some_iff.1 hi).1
    rwa [hlength]
  rw [noOverlaps_iff_covers hpos]
  refine forall₅_congr fun i j g hij hj => ?_
  rw [covers_iff_descriptorCovers h, covers_iff_descriptorCovers h]

theorem all_not_covers_iff_descriptorCovers {n : Nat} {bytes : List Byte} {rs : List Region}
    (h : descriptorRegions n bytes = some rs) (g : Nat) :
    (rs.all fun r => !r.covers g) = true ↔ ∀ i, i < n → ¬DescriptorCovers bytes i g := by
  obtain ⟨rfl, -⟩ := descriptorRegions_holdsFields h
  simp only [List.all_eq_true, List.forall_mem_iff_forall_getElem, Bool.not_eq_true', ← Bool.not_eq_true]
  exact forall₂_congr fun i hi => not_congr (covers_iff_descriptorCovers h hi g)

/-! ### The validity of the block (R134) -/

theorem headerAccepted_iff (bytes : List Byte) :
    headerAccepted bytes = true ↔ leField bytes 0 4 = 0x574C3432 ∧ leField bytes 12 1 ≤ 16 := by
  rw [headerAccepted, Bool.and_eq_true, beq_iff_eq, decide_eq_true_iff, blockCount, Config.signature]

theorem headerZeros_iff (bytes : List Byte) :
    headerZeros bytes = true ↔
      leField bytes 13 1 = 0 ∧ leField bytes 14 1 = 0 ∧ leField bytes 15 1 = 0 ∧ leField bytes 20 4 = 0 := by
  have hthree : leField bytes 13 3 = leField bytes 13 1 + 256 * (leField bytes 14 1 + 256 * leField bytes 15 1) := by
    rw [leField_succ bytes 13 2, leField_succ bytes 14 1]
  rw [headerZeros, Bool.and_eq_true, beq_iff_eq, beq_iff_eq, hthree]
  omega

theorem validBlock_eq_some_iff (g : Nat) (bytes : List Byte) (b : Block) :
    validBlock g bytes = some b ↔
      (headerAccepted bytes = true ∧ headerZeros bytes = true ∧ 1 ≤ leField bytes 16 2 ∧ blockSum bytes = 0)
        ∧ ∃ rs, descriptorRegions (blockCount bytes) (bytes.drop 24) = some rs
          ∧ (noOverlaps rs = true ∧ (rs.all fun r => !r.covers g) = true)
          ∧ { generation := BitVec.ofNat 32 (leField bytes 4 4), entitlementLimit := leField bytes 16 2,
              memoryTimeout := leField bytes 18 2, regions := rs } = b := by
  rw [validBlock, Config.headerBytes]
  cases descriptorRegions (blockCount bytes) (bytes.drop 24) <;> simp [and_assoc]

theorem validBlock_isSome_iff (g : Nat) (bytes : List Byte) :
    (validBlock g bytes).isSome = true ↔
      (headerAccepted bytes = true ∧ headerZeros bytes = true ∧ 1 ≤ leField bytes 16 2 ∧ blockSum bytes = 0)
        ∧ (∀ i, i < blockCount bytes → DescriptorConditions (descriptorField (bytes.drop 24) i))
        ∧ (∀ i j n, i < j → j < blockCount bytes →
            ¬(DescriptorCovers (bytes.drop 24) i n ∧ DescriptorCovers (bytes.drop 24) j n))
        ∧ ∀ i, i < blockCount bytes → ¬DescriptorCovers (bytes.drop 24) i g := by
  simp only [Option.isSome_iff_exists, validBlock_eq_some_iff]
  rw [← descriptorRegions_isSome_iff]
  constructor
  · rintro ⟨b, hheader, rs, hrs, ⟨hdisjoint, hgranule⟩, -⟩
    exact ⟨hheader, Option.isSome_of_eq_some hrs, (noOverlaps_iff_descriptorCovers hrs).1 hdisjoint,
      (all_not_covers_iff_descriptorCovers hrs g).1 hgranule⟩
  · rintro ⟨hheader, hsome, hdisjoint, hgranule⟩
    obtain ⟨rs, hrs⟩ := Option.isSome_iff_exists.1 hsome
    exact ⟨_, hheader, rs, hrs, ⟨(noOverlaps_iff_descriptorCovers hrs).2 hdisjoint,
      (all_not_covers_iff_descriptorCovers hrs g).2 hgranule⟩, rfl⟩

/-- In a block the descriptors stand behind the header of 24 bytes. -/
theorem descriptorField_drop_header (bytes : List Byte) (i off n : Nat) :
    descriptorField (bytes.drop 24) i off n = leField bytes (24 + 24 * i + off) n := by
  rw [descriptorField, leField_drop, Nat.add_assoc]

/-- Condition 6 of R134 names the descriptor by its offset in the block. -/
theorem forall_descriptorOffset_iff (c : Nat) (P : Nat → Prop) :
    (∀ i d, i < c → d = 24 + 24 * i → P d) ↔ ∀ i, i < c → P (24 + 24 * i) :=
  ⟨fun h i hi => h i _ hi rfl, fun h i _ hi hd => hd ▸ h i hi⟩

/-- Settles O34: the regions the descriptors give hold the fields, so the checks of the model on regions are the conditions on fields. -/
theorem validBlockConditions : Obligations.ValidBlockConditions := by
  unfold Obligations.ValidBlockConditions
  intro g bytes f c hf hc hlength
  obtain rfl : f = leField bytes := funext fun off => funext (hf off)
  subst hc
  constructor
  · rw [validBlock_isSome_iff, headerAccepted_iff, headerZeros_iff, blockSum_eq (6 + 6 * leField bytes 12 1) bytes (by omega)]
    simp only [DescriptorConditions, KindConditions, DescriptorCovers, descriptorField_drop_header, forall_descriptorOffset_iff,
      blockCount, and_assoc, Nat.add_right_comm 24 (24 * _), Nat.reduceAdd]
  · intro b hb
    obtain ⟨-, rs, hrs, -, rfl⟩ := (validBlock_eq_some_iff g bytes b).1 hb
    obtain ⟨hcount, hfields⟩ := descriptorRegions_holdsFields hrs
    refine ⟨(BitVec.toNat_ofNat _ _).trans (Nat.mod_eq_of_lt (leField_lt bytes 4 4)), rfl, rfl, hcount, fun i r hr => ?_⟩
    have hregion := hfields i r hr
    simp only [Region.HoldsFields, RegionKind.HoldsFields, descriptorField_drop_header, Nat.add_right_comm 24 (24 * i),
      Nat.reduceAdd] at hregion
    exact hregion

end Sys2Proof.Machine
end

section
/-! PROOFS. CAPTURE_ARM and CAPTURE_STOP (R157, R158): what a link command makes of the state once a frame may begin, which capture states are
idle, and the two commands case by case; then O46. -/
namespace Sys2Proof.Machine

/-! ### A frame that may begin (R162, R163) -/

/-- Unless the controller waits for CS_n to rise, the effect is taken after an earlier frame's end. -/
theorem State.atPointOfEffect_of_ne {s : State} (h : s.link.frame ≠ .awaitRise) (f : State → State) :
    s.atPointOfEffect f = f s.endFrame := by
  rcases s.atPointOfEffect_cases f with ⟨hwait, -⟩ | ⟨-, heffect⟩
  · exact absurd hwait h
  · exact heffect

/-! ### The capture states (R151) -/

theorem Capture.idle_eq_true_iff (c : Capture) : c.idle = true ↔ c.state = .off ∨ c.state = .frozen := by
  unfold Capture.idle
  cases c.state <;> simp

theorem Capture.idle_eq_false_iff (c : Capture) : c.idle = false ↔ c.state = .running ∨ c.state = .triggered := by
  unfold Capture.idle
  cases c.state <;> simp

/-- A stopped capture is idle: it discards what it is offered from then on (R152). -/
theorem Capture.idle_stop (c : Capture) : c.stop.idle = true := by
  unfold Capture.stop
  split
  · assumption
  · rfl

theorem Capture.stop_of_not_idle {c : Capture} (h : c.idle = false) : c.stop = { c with state := .frozen } := by
  simp [Capture.stop, h]

/-! ### The two commands (R157, R158) -/

/-- The effect after an earlier frame's end, with its ACK, is the reply together with the dropped marks. -/
theorem exec_captureArm {s : State} (h : s.link.frame ≠ .awaitRise) :
    exec .captureArm s = .next { s.answered .ack [] .nothing with capture := s.capture.arm } :=
  congrArg Host.Outcome.next (State.atPointOfEffect_of_ne h _)

/-- Whether an earlier frame's marks drop before or after the set request for FROZEN is the same. -/
theorem exec_captureStop {s : State} (h : s.link.frame ≠ .awaitRise) :
    exec .captureStop s =
      .next (if s.capture.idle then s.answered .ack [] .nothing
        else { (s.setFlag .frozen).answered .ack [] .nothing with capture := s.capture.stop }) :=
  congrArg Host.Outcome.next (State.atPointOfEffect_of_ne h _)

/-- Settles O46: ARM by its equation; STOP by whether the capture is idle, and a stopped capture takes no record. -/
theorem armAndStop : Obligations.ArmAndStop := by
  unfold Obligations.ArmAndStop
  intro s hframe
  refine ⟨exec_captureArm hframe, fun hruns => ?_, fun hrests => ?_⟩
  · have hidle : s.capture.idle = false := s.capture.idle_eq_false_iff.2 hruns
    refine ⟨{ (s.setFlag .frozen).answered .ack [] .nothing with capture := s.capture.stop }, ?_, ?_, fun r => ?_⟩
    · simp [exec_captureStop hframe, hidle]
    · rw [Capture.stop_of_not_idle hidle]
    · rw [State.offer_capture, Capture.take_idle s.capture.idle_stop]
  · have hidle : s.capture.idle = true := s.capture.idle_eq_true_iff.2 hrests
    rw [exec_captureStop hframe, if_pos hidle]

end Sys2Proof.Machine
end

section
/-! PROOFS. Cause flags and the CAUSES frame (R171, R172): the flags a byte shows, what a run of set requests makes of the attention logic, what a
completion leaves set; then O53. -/
namespace Sys2Proof.Machine

/-! ### The bits of the flags byte (R171, 11.5) -/

/-- The number of a flag's bit (11.5). -/
def CauseFlag.index : CauseFlag → Nat
  | .frozen => 0
  | .loadInvalid => 1
  | .reloadRejected => 2
  | .reloadApplied => 3
  | .memError => 4
  | .memTimeout => 5
  | .saturated => 6
  | .eviction => 7

theorem CauseFlag.bit_eq_twoPow (f : CauseFlag) : f.bit = BitVec.twoPow 8 f.index := by
  cases f <;> rfl

theorem CauseFlag.bit_ne_zero (f : CauseFlag) : f.bit ≠ 0 := by
  cases f <;> decide

theorem CauseFlag.getElem?_index (f : CauseFlag) :
    ([.frozen, .loadInvalid, .reloadRejected, .reloadApplied, .memError, .memTimeout, .saturated, .eviction]
      : List CauseFlag)[f.index]? = some f := by
  cases f <;> rfl

theorem CauseFlag.index_lt (f : CauseFlag) : f.index < 8 := (List.getElem?_eq_some_iff.1 f.getElem?_index).1

theorem CauseFlag.index_inj {f g : CauseFlag} : f.index = g.index ↔ f = g := by
  refine ⟨fun h => ?_, congrArg CauseFlag.index⟩
  have hf := f.getElem?_index
  rw [h, g.getElem?_index, Option.some.injEq] at hf
  exact hf.symm

theorem CauseFlag.and_bit_ne_zero_iff (x : Byte) (f : CauseFlag) : x &&& f.bit ≠ 0 ↔ x.getLsbD f.index = true := by
  rw [f.bit_eq_twoPow, BitVec.and_twoPow, ← f.bit_eq_twoPow]
  split
  next hset => exact iff_of_true f.bit_ne_zero hset
  next hclear => exact iff_of_false (absurd rfl) hclear

/-- A flag's bit is the bit of no other flag. -/
theorem CauseFlag.getLsbD_bit_index (f g : CauseFlag) : f.bit.getLsbD g.index = true ↔ g = f := by
  rw [f.bit_eq_twoPow, BitVec.getLsbD_twoPow, Bool.and_eq_true, decide_eq_true_iff, decide_eq_true_iff, CauseFlag.index_inj,
    and_iff_right f.index_lt, eq_comm]

/-- The bits of some flags, in one byte. -/
def CauseFlag.bits (fs : List CauseFlag) : Byte := fs.foldr (fun f b => f.bit ||| b) 0

theorem CauseFlag.bits_cons (f : CauseFlag) (fs : List CauseFlag) : CauseFlag.bits (f :: fs) = f.bit ||| CauseFlag.bits fs := rfl

theorem CauseFlag.getLsbD_bits_index (fs : List CauseFlag) (g : CauseFlag) :
    (CauseFlag.bits fs).getLsbD g.index = true ↔ g ∈ fs := by
  induction fs with
  | nil => simp [CauseFlag.bits]
  | cons f fs ih =>
    rw [CauseFlag.bits_cons, BitVec.getLsbD_or, Bool.or_eq_true, CauseFlag.getLsbD_bit_index, ih, List.mem_cons]

/-! ### Runs of set requests (R171, R172) -/

/-- Set requests add their bits to the flags, and to the marks of a CAUSES frame in progress. -/
theorem Attention.foldl_raise (fs : List CauseFlag) (a : Attention) :
    fs.foldl Attention.raise a =
      { a with flags := a.flags ||| CauseFlag.bits fs, marks := a.marks.map (· ||| CauseFlag.bits fs) } := by
  induction fs generalizing a with
  | nil => simp [CauseFlag.bits]
  | cons f fs ih => simp [List.foldl_cons, ih, Attention.raise, CauseFlag.bits_cons, BitVec.or_assoc, Function.comp_def]

theorem State.foldl_setFlag (fs : List CauseFlag) (s : State) :
    fs.foldl State.setFlag s = { s with attention := fs.foldl Attention.raise s.attention } := by
  induction fs generalizing s with
  | nil => rfl
  | cons f fs ih => exact ih (s.setFlag f)

/-- What the completion leaves of the flags shown and those set since: the ones set since. -/
theorem CauseFlag.cleared_and_bit_ne_zero_iff (shown : Byte) (later : List CauseFlag) (f : CauseFlag) :
    (shown ||| CauseFlag.bits later) &&& ~~~(shown &&& ~~~(0#8 ||| CauseFlag.bits later)) &&& f.bit ≠ 0 ↔ f ∈ later := by
  rw [CauseFlag.and_bit_ne_zero_iff, ← CauseFlag.getLsbD_bits_index]
  simp only [BitVec.getLsbD_and, BitVec.getLsbD_or, BitVec.getLsbD_not, BitVec.zero_or, f.index_lt, decide_true, Bool.true_and]
  cases shown.getLsbD f.index <;> simp

/-! ### The CAUSES frame (R172) -/

theorem exec_causes {s : State} (h : s.link.frame ≠ .awaitRise) :
    exec .causes s =
      .next { s with
        link := { s.link with frame := .replied .ack [s.attention.flags] (.clearCauses s.attention.flags) }
        attention := { s.attention with marks := some 0 } } :=
  congrArg Host.Outcome.next (State.atPointOfEffect_of_ne h _)

theorem exec_causesCompletion {s : State} {st : LinkStatus} {data : List Byte} {shown : Byte}
    (h : s.link.frame = .replied st data (.clearCauses shown)) :
    exec .causesCompletion s =
      .next { s with link := { s.link with frame := .between }, attention := s.attention.complete shown } := by
  change execCausesCompletion s = _
  rw [execCausesCompletion, h]

theorem exec_frameCutShortAfterPointOfEffect (s : State) :
    exec .frameCutShortAfterPointOfEffect s = .next s.endFrame := rfl

/-- Settles O53: the set requests taken since the snapshot are one byte of bits, added to the flags and to the marks alike. -/
theorem causesFrame : Obligations.CausesFrame := by
  unfold Obligations.CausesFrame
  intro s s1 s2 later hframe hs1 hs2
  have hs2eq : s2 = { s1 with
      attention := { s.attention with
        flags := s.attention.flags ||| CauseFlag.bits later, marks := some (0#8 ||| CauseFlag.bits later) } } := by
    rw [hs2, State.foldl_setFlag, Attention.foldl_raise, hs1]
    rfl
  have hs2frame : s2.link.frame = .replied .ack [s.attention.flags] (.clearCauses s.attention.flags) := by
    rw [hs2eq, hs1]
  refine ⟨(exec_causes hframe).trans (by rw [hs1]), fun f => ?_, ⟨_, exec_causesCompletion hs2frame, ?_, fun f => ?_⟩, ?_⟩
  · rw [hs2eq]
    simp only [CauseFlag.and_bit_ne_zero_iff, BitVec.getLsbD_or, Bool.or_eq_true, CauseFlag.getLsbD_bits_index]
  · rw [hs2eq, hs1]
    rfl
  · rw [hs2eq]
    exact CauseFlag.cleared_and_bit_ne_zero_iff _ later f
  · rw [exec_frameCutShortAfterPointOfEffect, hs2eq, hs1]
    rfl

end Sys2Proof.Machine
end

section
/-! PROOFS. The mask of the attention line (R173, R174): each operation over the whole part leaves the mask, and so does every command but SETMASK
and POWER_ON_RESET; the level of ATTN_n by bits; then O54. -/
namespace Sys2Proof.Machine

/-! ### Operations leave the mask (R173) -/

@[simp] theorem State.endTally_mask (s : State) (i : SlotIx) (t : Tally) (k : Cause) (r : Record) :
    (s.endTally i t k r).attention.mask = s.attention.mask := by
  unfold State.endTally; dsimp only; split <;> simp

@[simp] theorem State.failTally_mask (s : State) (i : SlotIx) (k : Cause) :
    (s.failTally i k).attention.mask = s.attention.mask := by
  unfold State.failTally; split <;> simp

@[simp] theorem State.finishTally_mask (s : State) (i : SlotIx) : (s.finishTally i).attention.mask = s.attention.mask := by
  unfold State.finishTally; split <;> simp

@[simp] theorem State.readHalfDone_mask (s : State) (i : SlotIx) (d : BitVec 512) :
    (s.readHalfDone i d).attention.mask = s.attention.mask := by
  unfold State.readHalfDone; split
  · dsimp only; split <;> rfl
  · rfl

@[simp] theorem State.endRead_mask (s : State) (b : Option Block) : (s.endRead b).attention.mask = s.attention.mask := by
  unfold State.endRead; split <;> simp

@[simp] theorem State.loaderRetired_mask (s : State) (f : BlockRead → BlockRead) :
    (s.loaderRetired f).attention.mask = s.attention.mask := by
  unfold State.loaderRetired; split
  · rfl
  · split <;> simp

@[simp] theorem State.okayCompletion_mask (s : State) (e : OutEntry) (d : BitVec 512) :
    (s.okayCompletion e d).attention.mask = s.attention.mask := by
  unfold State.okayCompletion; split
  · dsimp only; split <;> simp
  all_goals simp

@[simp] theorem State.failedCompletion_mask (s : State) (e : OutEntry) (k : Cause) :
    (s.failedCompletion e k).attention.mask = s.attention.mask := by
  unfold State.failedCompletion; split
  · dsimp only; split <;> simp
  all_goals simp

@[simp] theorem State.retireOkay_mask (s : State) (e : OutEntry) (d : BitVec 512) :
    (s.retireOkay e d).attention.mask = s.attention.mask := by
  simp [State.retireOkay]

@[simp] theorem State.retireFailed_mask (s : State) (e : OutEntry) (f : CauseFlag) (k : Cause) :
    (s.retireFailed e f k).attention.mask = s.attention.mask := by
  simp [State.retireFailed]

@[simp] theorem State.memoryTimeout_mask (s : State) : s.memoryTimeout.attention.mask = s.attention.mask := by
  rcases s.memoryTimeout_cases with ⟨e, rest, -, -, h⟩ | ⟨-, h⟩ <;> simp [h]

@[simp] theorem State.leaseExpiry_mask (s : State) (a : Agent) (c : Addr) :
    (s.leaseExpiry a c).attention.mask = s.attention.mask := State.takeMonitor_mask s _

@[simp] theorem State.entitlementExpiry_mask (s : State) (i : SlotIx) :
    (s.entitlementExpiry i).attention.mask = s.attention.mask := State.takeMonitor_mask s _

@[simp] theorem State.holdExpiry_mask (s : State) (i : SlotIx) : (s.holdExpiry i).attention.mask = s.attention.mask :=
  State.takeMonitor_mask s _

theorem State.foldl_leaseExpiry_mask (es : List TableEntry) (s : State) :
    (es.foldl (fun x e => x.leaseExpiry e.agent e.cell) s).attention.mask = s.attention.mask := by
  induction es generalizing s with
  | nil => rfl
  | cons e es ih => exact (ih (s.leaseExpiry e.agent e.cell)).trans (s.leaseExpiry_mask e.agent e.cell)

@[simp] theorem State.takeRunOuts_mask (s : State) : s.takeRunOuts.attention.mask = s.attention.mask := by
  simp [State.takeRunOuts, State.foldl_leaseExpiry_mask]

@[simp] theorem State.takeGuardedRead_mask (s : State) (g : Grant) :
    (s.takeGuardedRead g).attention.mask = s.attention.mask := by
  simp [State.takeGuardedRead]

@[simp] theorem State.takeGuardedWrite_mask (s : State) (g : Grant) :
    (s.takeGuardedWrite g).attention.mask = s.attention.mask := by
  unfold State.takeGuardedWrite; split <;> simp

@[simp] theorem State.grantEffects_mask (s : State) (g : Grant) : (s.grantEffects g).attention.mask = s.attention.mask := by
  unfold State.grantEffects
  cases g.cls.disp with
  | tallyWrite => dsimp only; split <;> simp
  | _ => simp

@[simp] theorem State.portReset_mask (s : State) (p : PortIx) : (s.portReset p).attention.mask = s.attention.mask := by
  simp [State.portReset]

/-! ### Commands leave the mask (R173) -/

/-- The outcome `o` of a command taken in `s` leaves the mask. -/
def State.KeepsMask (s : State) (o : Host.Outcome State Fault Refusal) : Prop :=
  ∀ t, o = .next t → t.attention.mask = s.attention.mask

@[simp] theorem State.keepsMask_next (s t : State) : s.KeepsMask (.next t) ↔ t.attention.mask = s.attention.mask :=
  ⟨fun h => h t rfl, fun h _ hu => Host.Outcome.next.inj hu ▸ h⟩

/-- A link command leaves the mask when its effect does: the end of an earlier frame drops marks alone. -/
theorem State.keepsMask_atPointOfEffect (s : State) {f : State → State} (h : ∀ x, (f x).attention.mask = x.attention.mask) :
    s.KeepsMask (.next (s.atPointOfEffect f)) := by
  rw [State.keepsMask_next]
  rcases s.atPointOfEffect_cases f with ⟨-, hsame⟩ | ⟨-, heffect⟩
  · rw [hsame]
  · rw [heffect, h]
    rfl

theorem execPortReset_keepsMask (p : PortIx) (s : State) : s.KeepsMask (execPortReset p s) := by
  unfold execPortReset; split <;> simp

theorem execAcceptance_keepsMask (p : PortIx) (r : Req) (s : State) : s.KeepsMask (execAcceptance p r s) := by
  unfold execAcceptance; split <;> simp

theorem execAdmission_keepsMask (s : State) : s.KeepsMask (execAdmission s) := by
  unfold execAdmission; split <;> simp

theorem execLoaderReadIssue_keepsMask (s : State) : s.KeepsMask (execLoaderReadIssue s) := by
  unfold execLoaderReadIssue; split
  · simp
  · split
    · simp
    · split <;> simp

theorem execMemoryResponse_keepsMask (tag : BitVec 5) (okay : Bool) (data : BitVec 512) (s : State) :
    s.KeepsMask (execMemoryResponse tag okay data s) := by
  unfold execMemoryResponse; split
  · simp
  · split
    · split <;> simp
    · simp

theorem execFetching_keepsMask (s : State) : s.KeepsMask (execFetching s) := by
  unfold execFetching; split <;> simp

theorem execTimeBaseTick_keepsMask (s : State) : s.KeepsMask (execTimeBaseTick s) := by
  simp [execTimeBaseTick]

theorem execCausesCompletion_keepsMask (s : State) : s.KeepsMask (execCausesCompletion s) := by
  unfold execCausesCompletion; split <;> simp [Attention.complete]

theorem execAgent_keepsMask (number clear : Byte) (s : State) : s.KeepsMask (execAgent number clear s) := by
  refine s.keepsMask_atPointOfEffect fun x => ?_
  split
  · split
    · rfl
    · split <;> rfl
  · rfl

theorem execAgentClear_keepsMask (s : State) : s.KeepsMask (execAgentClear s) := by
  unfold execAgentClear; split <;> simp

theorem execRegion_keepsMask (index : Byte) (s : State) : s.KeepsMask (execRegion index s) :=
  s.keepsMask_atPointOfEffect fun x => by split <;> rfl

theorem execCaptureSetup_keepsMask (args : SetupArgs) (s : State) : s.KeepsMask (execCaptureSetup args s) := by
  refine s.keepsMask_atPointOfEffect fun x => ?_
  split
  · split <;> rfl
  · rfl

theorem execCaptureStop_keepsMask (s : State) : s.KeepsMask (execCaptureStop s) :=
  s.keepsMask_atPointOfEffect fun x => by split <;> rfl

theorem execCaptureRead_keepsMask (start : Byte) (count : BitVec 16) (s : State) : s.KeepsMask (execCaptureRead start count s) := by
  refine s.keepsMask_atPointOfEffect fun x => ?_
  split
  · split <;> rfl
  · rfl

theorem execMonitorReset_keepsMask (s : State) : s.KeepsMask (execMonitorReset s) :=
  s.keepsMask_atPointOfEffect fun x => State.offer_mask { x with monitor := x.monitor.drop } _

theorem execBadcmd_keepsMask (byte : Byte) (s : State) : s.KeepsMask (execBadcmd byte s) := by
  unfold execBadcmd; split
  · simp
  · exact s.keepsMask_atPointOfEffect fun _ => rfl

/-- Every command but SETMASK and POWER_ON_RESET leaves the mask. -/
theorem exec_keepsMask (c : Instr) (s : State) (hsetmask : ∀ mask, c ≠ .setmask mask)
    (hreset : ∀ pbase ownp prst csLow, c ≠ .powerOnReset pbase ownp prst csLow) : s.KeepsMask (exec c s) := by
  cases c with
  | powerOnReset pbase ownp prst csLow => exact absurd rfl (hreset pbase ownp prst csLow)
  | setmask mask => exact absurd rfl (hsetmask mask)
  | portReset p => exact execPortReset_keepsMask p s
  | prstDeasserted p => exact (s.keepsMask_next _).2 rfl
  | acceptance p r => exact execAcceptance_keepsMask p r s
  | admission => exact execAdmission_keepsMask s
  | writeHalfIssue => exact (s.keepsMask_next _).2 (congrArg Attention.mask s.issueWriteHalf_attention)
  | loaderReadIssue => exact execLoaderReadIssue_keepsMask s
  | memoryResponse tag okay data => exact execMemoryResponse_keepsMask tag okay data s
  | memoryTimeout => exact (s.keepsMask_next _).2 s.memoryTimeout_mask
  | fetching => exact execFetching_keepsMask s
  | responseDeparture p => exact (s.keepsMask_next _).2 rfl
  | timeBaseTick => exact execTimeBaseTick_keepsMask s
  | leaseExpiry a c => exact (s.keepsMask_next _).2 (s.leaseExpiry_mask a c)
  | entitlementExpiry n => exact (s.keepsMask_next _).2 (s.entitlementExpiry_mask n)
  | holdLimitExpiry n => exact (s.keepsMask_next _).2 (s.holdExpiry_mask n)
  | causesCompletion => exact execCausesCompletion_keepsMask s
  | agent number clear => exact execAgent_keepsMask number clear s
  | agentClear => exact execAgentClear_keepsMask s
  | region index => exact execRegion_keepsMask index s
  | captureSetup args => exact execCaptureSetup_keepsMask args s
  | captureStop => exact execCaptureStop_keepsMask s
  | captureRead start count => exact execCaptureRead_keepsMask start count s
  | monitorReset => exact execMonitorReset_keepsMask s
  | badcmd byte => exact execBadcmd_keepsMask byte s
  | frameCutShort | frameCutShortAfterPointOfEffect => exact (s.keepsMask_next _).2 rfl
  | status | causes | reservations | holds | captureArm | halt | resume =>
    exact s.keepsMask_atPointOfEffect fun _ => rfl

/-! ### SETMASK and ATTN_n (R173, R174) -/

theorem exec_setmask (mask : Byte) {s : State} (h : s.link.frame ≠ .awaitRise) :
    exec (.setmask mask) s =
      .next { s.answered .ack [] .nothing with attention := { flags := s.attention.flags, mask := mask, marks := none } } :=
  congrArg Host.Outcome.next (State.atPointOfEffect_of_ne h _)

theorem Attention.low_iff (a : Attention) :
    a.low = true ↔ ∃ k, k < 8 ∧ a.flags.getLsbD k = true ∧ a.mask.getLsbD k = false := by
  rw [Attention.low, bne_iff_ne, Ne, BitVec.eq_of_getLsbD_eq_iff, Classical.not_forall]
  refine exists_congr fun k => ?_
  rw [Classical.not_imp]
  refine and_congr_right fun hk => ?_
  rw [BitVec.getLsbD_and, BitVec.getLsbD_not, BitVec.getLsbD_zero, decide_eq_true hk, Bool.true_and, Bool.not_eq_false,
    Bool.and_eq_true, Bool.not_eq_true']

/-- The mask is the last byte of STATUS (11.3). -/
theorem State.statusBytes_getElem?_mask (s : State) : s.statusBytes[15]? = some s.attention.mask := rfl

/-- Settles O54: each command's effect on the mask, and the level of ATTN_n bit by bit. -/
theorem maskRule : Obligations.MaskRule := by
  unfold Obligations.MaskRule
  refine ⟨fun _ _ _ _ _ => ⟨_, rfl, rfl⟩, fun mask _ hframe => exec_setmask mask hframe, ?_,
    fun s => ⟨s.attention.low_iff, s.statusBytes_getElem?_mask⟩⟩
  intro c s t hexec hsetmask hreset
  exact exec_keepsMask c s hsetmask hreset t hexec

end Sys2Proof.Machine
end

section
-- One theorem at a time: side by side the proofs ask for more threads than the sandbox grants.
set_option Elab.async false

/-! PROOFS. The moves of the part: every command answers a next state that it reaches by moves, each of them one update of the blocks that
belong together, with the facts of the state in which it is taken. The laws of the state are proved move by move; and O2. -/
namespace Sys2Proof.Machine

/-! ### The moves -/

/-- The request at the head of its port's queue, classified, while the part is RUNNING (R112). -/
structure State.Offers (s : State) (g : Grant) : Prop where
  queued : ∃ rest, (s.ports.get g.port).queue = g.acc :: rest
  classified : g.cls = s.loader.classify g.port g.acc.req
  running : s.loader.part = .running

/-- What the reservation monitor can be told to do. -/
inductive State.MonitorEvent (s : State) : Monitor → Prop where
  | verdict (a : Agent) (k : Cause) : State.MonitorEvent s (s.monitor.setVerdict a k)
  | answer (a : Agent) (d : Dir) (c : Addr) (r : RegionIx) (k : Cause) :
      State.MonitorEvent s (s.monitor.answer a d c r k).monitor
  | guardedRead (g : Grant) (hoffers : s.Offers g) (hdisp : g.cls.disp = .guardedRead) :
      State.MonitorEvent s (s.readStep g).monitor
  | guardedWrite (g : Grant) : State.MonitorEvent s (s.writeStep g).step.monitor
  | tick : State.MonitorEvent s s.monitor.tick
  | leaseExpiry (a : Agent) (c : Addr) : State.MonitorEvent s (s.monitor.leaseExpiry a c).monitor
  | entitlementExpiry (i : SlotIx) (limit : Nat) : State.MonitorEvent s (s.monitor.entitlementExpiry i limit).monitor
  | holdExpiry (i : SlotIx) (limit : Nat) : State.MonitorEvent s (s.monitor.holdExpiry i limit).monitor
  | portReset (p : PortIx) (limit : Nat) : State.MonitorEvent s (s.monitor.portReset p limit).monitor
  | drop : State.MonitorEvent s s.monitor.drop
  | lowerCounters (a : Agent) (n k : Nat) : State.MonitorEvent s (s.monitor.lowerCounters a n k)
  | removeEntry (a : Agent) (c : Addr) : State.MonitorEvent s (s.monitor.removeEntry a c)

/-- What the policy loader can do between a start of its read and the end of it (R135 to R144). -/
inductive State.LoaderEvent (s : State) : Loader → Prop where
  | drain (hrunning : s.loader.part = .running) : State.LoaderEvent s { s.loader with part := .draining }
  | fetch (hpart : s.loader.part = .running ∨ s.loader.part = .draining) (hdrained : s.drained = true) :
      State.LoaderEvent s s.loader.startFetch
  | read (b : BlockRead) (hreading : s.loader.reading ≠ none) : State.LoaderEvent s { s.loader with reading := some b }
  | reject (hreading : s.loader.reading ≠ none) : State.LoaderEvent s { s.loader with part := .running, reading := none }
  | install (b : Block) (bytes : List Byte) (hreading : s.loader.reading ≠ none)
      (hvalid : validBlock s.loader.policyGranule bytes = some b) (hempty : s.loader.part = .loading ∨ s.monitor.table = []) :
      State.LoaderEvent s { s.loader.install b with part := .running, reading := none }

/-- What the capture unit can do (chapter 8). -/
inductive Capture.Event (c : Capture) : Capture → Prop where
  | take (r : Record) : Capture.Event c (c.take r)
  | arm : Capture.Event c c.arm
  | stop : Capture.Event c c.stop
  | setup (f : Setup) : Capture.Event c { c with setup := f }
  | tick : Capture.Event c { c with timeBase := c.timeBase + 1 }

/-- What the link controller and the attention logic can do (chapter 9). A reply that is no CAUSES frame's comes when an earlier frame has
ended, so no marks stand. -/
inductive State.LinkEvent (s : State) : Link → Attention → Prop where
  | raise (f : CauseFlag) : State.LinkEvent s s.link (s.attention.raise f)
  | endFrame : State.LinkEvent s { s.link with frame := .between } s.attention.dropMarks
  | reply (st : LinkStatus) (data : List Byte) (done : Completion) (hmarks : s.attention.marks = none)
      (hdone : ∀ shown, done ≠ .clearCauses shown) : State.LinkEvent s { s.link with frame := .replied st data done } s.attention
  | causes (data : List Byte) (shown : Byte) :
      State.LinkEvent s { s.link with frame := .replied .ack data (.clearCauses shown) } s.attention.startMarks
  | complete (shown : Byte) : State.LinkEvent s { s.link with frame := .between } (s.attention.complete shown)
  | release (hframe : ∀ st data shown, s.link.frame ≠ .replied st data (.clearCauses shown)) :
      State.LinkEvent s { s.link with frame := .between } s.attention
  | cancelClear (p : PortIx) : State.LinkEvent s { s.link with frame := s.link.frame.cancelClear p } s.attention
  | mask (mask : Byte) : State.LinkEvent s s.link { s.attention with mask := mask }
  | pause (on : Bool) : State.LinkEvent s { s.link with pause := on } s.attention

/-- The front ends and the pointer after a grant whose request leaves its queue. -/
def State.granted (s : State) (g : Grant) : Four Port :=
  s.ports.set g.port { s.ports.get g.port with queue := (s.ports.get g.port).queue.tail }

/-- One move of command `c`. -/
inductive State.Move (c : Instr) : State → State → Prop where
  | capture (s : State) (cap : Capture) (h : s.capture.Event cap) : State.Move c s { s with capture := cap }
  | link (s : State) (l : Link) (a : Attention) (h : s.LinkEvent l a) : State.Move c s { s with link := l, attention := a }
  | monitor (s : State) (m : Monitor) (h : s.MonitorEvent m) : State.Move c s { s with monitor := m }
  | loader (s : State) (l : Loader) (h : s.LoaderEvent l) : State.Move c s { s with loader := l }
  | powerOn (s : State) (pbase ownp : Fin 4) (prst : BitVec 4) (csLow : Bool) (t : State)
      (hc : c = .powerOnReset pbase ownp prst csLow) (ht : exec c s = .next t) : State.Move c s t
  | portReset (s : State) (p : PortIx) (hc : c = .portReset p) : State.Move c s (s.updPort p Port.reset)
  | reopen (s : State) (p : PortIx) : State.Move c s (s.updPort p fun q => { q with resetAsserted := false })
  | accept (s : State) (p : PortIx) (r : Req) (h : (s.ports.get p).accepts = true) : State.Move c s (s.updPort p fun q => q.accept r)
  | depart (s : State) (p : PortIx) (hc : c = .responseDeparture p) : State.Move c s (s.updPort p Port.depart)
  /-- A granted request is answered at once (R13, R55). -/
  | answer (s : State) (g : Grant) (k : Cause) (h : s.Offers g) :
      State.Move c s
        { s with ports := s.ports.set g.port ((s.ports.get g.port).answeredHead g.acc.id k), pointer := g.port + 1 }
  /-- A granted request is issued, with no write half waiting (R14, R119). -/
  | issueRequest (s : State) (g : Grant) (h : s.Offers g) (hplace : s.placesUsed < Config.places) (hwaiting : s.tally.waiting = [])
      (hdisp : g.cls.disp = .forward ∨ g.cls.disp = .guardedRead ∨ g.cls.disp = .guardedWrite
        ∨ g.cls.disp = .tallyRead ∧ s.tally.busy g.cls.cell = false) (hc : c = .admission) :
      State.Move c s
        { s with
          ports := s.granted g
          pointer := g.port + 1
          memory := s.memory.issue s.loader.memoryTimeout g.acc.req.dir g.acc.req.addr g.acc.req.len g.acc.req.payload
            (.agentRequest g.owner g.acc.id g.cls.disp g.cls.trigger) }
  /-- A granted tally write takes a slot and its read half is issued, with no write half waiting (R87, R88). -/
  | takeTally (s : State) (g : Grant) (i : SlotIx) (t : Tally) (h : s.Offers g) (hplace : s.placesUsed < Config.places)
      (hwaiting : s.tally.waiting = []) (hdisp : g.cls.disp = .tallyWrite) (hbusy : s.tally.busy g.cls.cell = false)
      (hfree : s.tally.slots.get i = none) (ht : t = { g.newTally with tag := some s.memory.nextTag }) (hc : c = .admission) :
      State.Move c s
        { s with
          ports := s.granted g
          pointer := g.port + 1
          tally := s.tally.setSlot i (some t)
          memory := s.memory.issue s.loader.memoryTimeout .read t.addr t.width.len [] (.tallyRead t.owner i) }
  | issueWriteHalf (s : State) (hc : c = .admission ∨ c = .writeHalfIssue) : State.Move c s s.issueWriteHalf
  | issueLoaderRead (s : State) (b : BlockRead) (addr : Addr) (rest : List Addr) (hreading : s.loader.reading = some b)
      (hasked : b.asked = addr :: rest) (hplace : s.placesUsed < Config.places) (hc : c = .loaderReadIssue) :
      State.Move c s
        { s with
          loader := { s.loader with reading := some { b with asked := rest } }
          memory := s.memory.issue s.loader.memoryTimeout .read addr (.single .s8) [] .loaderRead }
  /-- The oldest transaction, an agent request's, is retired, and its entry is completed (R122, R123). -/
  | retireRequest (s : State) (e : OutEntry) (rest : List OutEntry) (o : Owner) (id : Nat) (d : Disposition) (trigger : Bool)
      (r : Response) (he : s.memory.outstanding = e :: rest) (horigin : e.origin = .agentRequest o id d trigger) :
      State.Move c s
        { s with
          memory := s.memory.retire s.loader.memoryTimeout
          ports := s.ports.set (portOf o.agent) ((s.ports.get (portOf o.agent)).complete id r) }
  /-- The oldest transaction, a read half, is retired OKAY, and its write half waits (R89 to R91). -/
  | retireReadHalf (s : State) (e : OutEntry) (rest : List OutEntry) (o : Owner) (i : SlotIx) (t : Tally) (v : BitVec 64)
      (clamped : Bool) (he : s.memory.outstanding = e :: rest) (horigin : e.origin = .tallyRead o i)
      (ht : s.tally.slots.get i = some t) :
      State.Move c s
        { s with
          memory := s.memory.retire s.loader.memoryTimeout
          tally :=
            { slots := s.tally.slots.set i (some { t with phase := .writing v clamped, tag := none })
              waiting := s.tally.waiting ++ [i] } }
  /-- The oldest transaction, a half, is retired and ends its tally (R92 to R94). -/
  | endTally (s : State) (e : OutEntry) (rest : List OutEntry) (o : Owner) (i : SlotIx) (t : Tally) (r : Response)
      (he : s.memory.outstanding = e :: rest) (horigin : e.origin = .tallyRead o i ∨ e.origin = .tallyWrite o i)
      (ht : s.tally.slots.get i = some t) :
      State.Move c s
        { s with
          memory := s.memory.retire s.loader.memoryTimeout
          tally := s.tally.setSlot i none
          ports := s.ports.set (portOf t.agent)
            (if t.epoch = (s.ports.get (portOf t.agent)).epoch then (s.ports.get (portOf t.agent)).complete t.id r
              else (s.ports.get (portOf t.agent)).finish t.id) }
  /-- The oldest transaction is retired, being a loader read, or a half whose slot is FREE, which no lawful state has. -/
  | retireOther (s : State) (e : OutEntry) (rest : List OutEntry) (he : s.memory.outstanding = e :: rest)
      (horigin : e.origin = .loaderRead
        ∨ ∃ o i, (e.origin = .tallyRead o i ∨ e.origin = .tallyWrite o i) ∧ s.tally.slots.get i = none) :
      State.Move c s { s with memory := s.memory.retire s.loader.memoryTimeout }
  | countTimer (s : State) : State.Move c s { s with memory := { s.memory with timer := s.memory.timer.map (· - 1) } }

/-- The state reached by some moves of command `c`. -/
inductive State.Moves (c : Instr) : State → State → Prop
  | refl (s : State) : State.Moves c s s
  | tail {s t u : State} (h : State.Moves c s t) (hlast : State.Move c t u) : State.Moves c s u

/-- What every move of a command keeps, its moves keep. -/
theorem State.Moves.keep {P : State → Prop} {c : Instr} {s t : State} (h : State.Moves c s t)
    (hmove : ∀ x y, State.Move c x y → P x → P y) (hs : P s) : P t := by
  induction h with
  | refl => exact hs
  | tail _ hlast ih => exact hmove _ _ hlast ih

theorem State.Moves.trans {c : Instr} {s t u : State} (h : State.Moves c s t) (hu : State.Moves c t u) : State.Moves c s u := by
  induction hu with
  | refl => exact h
  | tail _ hlast ih => exact ih.tail hlast

theorem State.Move.moves {c : Instr} {s t : State} (h : State.Move c s t) : State.Moves c s t := (State.Moves.refl s).tail h

section
variable {c : Instr}

/-! ### Records, flags and events of the monitor -/

/-- A fold of operations that are moves is moves. -/
theorem State.moves_foldl {α : Type} {f : State → α → State} (h : ∀ s x, State.Moves c s (f s x)) (l : List α) (s : State) :
    State.Moves c s (l.foldl f s) := by
  induction l generalizing s with
  | nil => exact State.Moves.refl s
  | cons x l ih => exact (h s x).trans (ih _)

theorem State.moves_setFlag (s : State) (f : CauseFlag) : State.Moves c s (s.setFlag f) := (State.Move.link s _ _ (.raise f)).moves

theorem State.moves_offer (s : State) (r : Record) : State.Moves c s (s.offer r) := by
  have htake := (State.Move.capture (c := c) s _ (.take r)).moves
  unfold State.offer
  dsimp only
  split
  · exact htake.trans (State.moves_setFlag _ .frozen)
  · exact htake

theorem State.moves_takeMonitor {s : State} {m : MonitorStep} (h : s.MonitorEvent m.monitor) : State.Moves c s (s.takeMonitor m) := by
  have hrecords : State.Moves c s (({ s with monitor := m.monitor } : State).offerAll m.records) :=
    (State.Move.monitor s m.monitor h).moves.trans (State.moves_foldl State.moves_offer _ _)
  unfold State.takeMonitor
  dsimp only
  split
  · exact hrecords.trans (State.moves_setFlag _ .eviction)
  · exact hrecords

theorem State.moves_leaseExpiry (s : State) (a : Agent) (x : Addr) : State.Moves c s (s.leaseExpiry a x) :=
  State.moves_takeMonitor (.leaseExpiry a x)

theorem State.moves_entitlementExpiry (s : State) (i : SlotIx) : State.Moves c s (s.entitlementExpiry i) :=
  State.moves_takeMonitor (.entitlementExpiry i _)

theorem State.moves_holdExpiry (s : State) (i : SlotIx) : State.Moves c s (s.holdExpiry i) :=
  State.moves_takeMonitor (.holdExpiry i _)

theorem State.moves_takeRunOuts (s : State) : State.Moves c s s.takeRunOuts :=
  (State.moves_foldl (fun s (e : TableEntry) => s.moves_leaseExpiry e.agent e.cell) _ _).trans
    (State.moves_foldl (fun s i => (s.moves_entitlementExpiry i).trans (State.moves_holdExpiry _ i)) _ _)

theorem State.moves_issueWriteHalves (s : State) : State.Moves .admission s s.issueWriteHalves :=
  State.moves_foldl (fun s _ => (State.Move.issueWriteHalf s (.inl rfl)).moves) _ _

/-! ### The monitor drop empties the table (R41) -/

/-- A run of operations that leave the table leaves the table. -/
theorem Monitor.foldl_table {α : Type} {f : Monitor → α → Monitor} (h : ∀ m x, (f m x).table = m.table) (l : List α) (m : Monitor) :
    (l.foldl f m).table = m.table := by
  induction l generalizing m with
  | nil => rfl
  | cons x l ih => exact (ih (f m x)).trans (h m x)

@[simp] theorem Monitor.dropSlot_table (m : Monitor) (i : SlotIx) : (m.dropSlot i).table = m.table := by
  unfold Monitor.dropSlot; split <;> rfl

@[simp] theorem Monitor.drop_table (m : Monitor) : m.drop.table = [] := by
  simp only [Monitor.drop, Monitor.mapCtxs_table]
  rw [Monitor.foldl_table Monitor.dropSlot_table, Monitor.foldl_table fun m e => Monitor.lose_table m _ _ _]

/-! ### The read of the policy block (R135 to R144) -/

/-- The read goes on, or ends invalid, or ends with the block that the bytes read hold. -/
theorem BlockRead.advance_cases (b : BlockRead) (base : Addr) (g : Nat) (quiet : Bool) :
    (∃ b1, b.advance base g quiet = .goesOn b1) ∨ b.advance base g quiet = .ended none
      ∨ b.advance base g quiet = .ended (validBlock g b.bytes) := by
  unfold BlockRead.advance
  split
  · exact .inl ⟨_, rfl⟩
  · split
    · exact .inr (.inl rfl)
    · split
      · exact .inr (.inr rfl)
      · split
        · split
          · exact .inr (.inr rfl)
          · exact .inl ⟨_, rfl⟩
        · exact .inr (.inl rfl)

/-- The part state is taken before or after the records of the end of the read. -/
theorem State.run_offerControl (s : State) (k : ControlCode) : (s.offerControl k).run = s.run.offerControl k := by
  unfold State.offerControl State.offer
  dsimp only
  split <;> rename_i h
  · exact (if_pos (c := (s.run.capture.freezesOn _) = true) h).symm
  · exact (if_neg (c := (s.run.capture.freezesOn _) = true) h).symm

theorem State.moves_offerControl (s : State) (k : ControlCode) : State.Moves c s (s.offerControl k) := s.moves_offer _

/-- The end of the read without a block: the loader runs again, with the flag and the record. -/
theorem State.moves_endRead_none (s : State) (hreading : s.loader.reading ≠ none) : State.Moves c s (s.endRead none) := by
  have hreject := (State.Move.loader (c := c) s _ (.reject hreading)).moves
  cases hpart : s.loader.part with
  | running | draining => simp only [State.endRead, hpart]; exact State.Moves.refl s
  | loading | fetching =>
    simp only [State.endRead, hpart, State.run_offerControl]
    exact hreject.trans ((State.moves_setFlag _ _).trans (State.moves_offerControl _ _))

/-- The end of the read with a valid block: at start-up the table is empty; in a reload the drop empties it before the block becomes live. -/
theorem State.moves_endRead_some (s : State) (b : Block) (bytes : List Byte) (hreading : s.loader.reading ≠ none)
    (hvalid : validBlock s.loader.policyGranule bytes = some b) : State.Moves c s (s.endRead (some b)) := by
  cases hpart : s.loader.part with
  | running | draining => simp only [State.endRead, hpart]; exact State.Moves.refl s
  | loading =>
    simp only [State.endRead, hpart, State.run_offerControl]
    exact (State.Move.loader s _ (.install b bytes hreading hvalid (.inl hpart))).moves.trans (State.moves_offerControl _ _)
  | fetching =>
    simp only [State.endRead, hpart, State.run_offerControl]
    have hinstall := (State.Move.loader (c := c) { s with monitor := s.monitor.drop } _
      (.install b bytes hreading hvalid (.inr s.monitor.drop_table))).moves
    exact ((State.Move.monitor s _ .drop).moves.trans hinstall).trans
      ((State.moves_setFlag _ _).trans (State.moves_offerControl _ _))

theorem State.moves_loaderRetired (s : State) (f : BlockRead → BlockRead) : State.Moves c s (s.loaderRetired f) := by
  cases hreading : s.loader.reading with
  | none => simp only [State.loaderRetired, hreading]; exact State.Moves.refl s
  | some b =>
    have hne : s.loader.reading ≠ none := by simp [hreading]
    rcases (f b).advance_cases s.loader.policyBase s.loader.policyGranule
      (!s.memory.outstanding.any fun e => e.origin.isLoader) with ⟨b1, h⟩ | h | h
    · simp only [State.loaderRetired, hreading, h]
      exact (State.Move.loader s _ (.read b1 hne)).moves
    · simp only [State.loaderRetired, hreading, h]
      exact s.moves_endRead_none hne
    · simp only [State.loaderRetired, hreading, h]
      cases hblock : validBlock s.loader.policyGranule (f b).bytes with
      | none => exact s.moves_endRead_none hne
      | some block => exact s.moves_endRead_some block _ hne hblock

theorem State.moves_reloadTrigger (s : State) : State.Moves c s s.reloadTrigger := by
  unfold State.reloadTrigger
  split
  next hrunning =>
    split
    next hdrained => exact (State.Move.loader s _ (.fetch (.inl hrunning) hdrained)).moves
    next => exact (State.Move.loader s _ (.drain hrunning)).moves
  all_goals exact State.Moves.refl s

/-! ### Retirement (R121 to R125)

Retirement, the flag of a failure, and the completion are taken one after another by the model; the moves take retirement and the front
end's part of the completion as one, and the rest in any order. -/

/-- A request's retirement and completion: the verdict follows as an event of the monitor. -/
theorem State.moves_completeRequest {s : State} {e : OutEntry} {rest : List OutEntry} {o : Owner} {id : Nat} {d : Disposition}
    {trigger : Bool} (he : s.memory.outstanding = e :: rest) (horigin : e.origin = .agentRequest o id d trigger) (dir : Dir) (k : Cause)
    (data : List Byte) : State.Moves c s (s.retire.completeRequest o id dir k data) := by
  have hmove : State.Moves c s (s.retire.respond (portOf o.agent) id k data) :=
    (State.Move.retireRequest s e rest o id d trigger { cause := k, data := data } he horigin).moves
  unfold State.completeRequest
  dsimp only
  split
  · exact hmove.trans (State.Move.monitor _ _ (.verdict o.agent k)).moves
  · exact hmove

/-- The end of a tally, block by block (R92 to R94). -/
theorem State.endTally_eq (s : State) (i : SlotIx) (t : Tally) (k : Cause) (r : Record) :
    s.endTally i t k r =
      { s.offer r with
        ports := s.ports.set (portOf t.agent)
          (if t.epoch = (s.ports.get (portOf t.agent)).epoch then
            (s.ports.get (portOf t.agent)).complete t.id { cause := k, data := [] }
          else (s.ports.get (portOf t.agent)).finish t.id)
        monitor := if t.epoch = (s.ports.get (portOf t.agent)).epoch then s.monitor.setVerdict t.agent k else s.monitor
        tally := s.tally.setSlot i none } := by
  unfold State.endTally
  dsimp only
  by_cases hepoch : t.epoch = (s.ports.get (portOf t.agent)).epoch
  · rw [if_pos hepoch, if_pos hepoch, if_pos hepoch, State.mk.injEq]
    simp [State.offer_attention, State.respond, State.updPort]
    rfl
  · rw [if_neg hepoch, if_neg hepoch, if_neg hepoch, State.mk.injEq]
    simp [State.offer_attention, State.updPort]

/-- The end of a tally: its verdict and its record follow the retirement. -/
theorem State.moves_endTally {s : State} {e : OutEntry} {rest : List OutEntry} {o : Owner} {i : SlotIx} {t : Tally}
    (he : s.memory.outstanding = e :: rest) (horigin : e.origin = .tallyRead o i ∨ e.origin = .tallyWrite o i)
    (ht : s.tally.slots.get i = some t) (k : Cause) (r : Record) : State.Moves c s (s.retire.endTally i t k r) := by
  have hmove := (State.Move.endTally (c := c) s e rest o i t { cause := k, data := [] } he horigin ht).moves
  have hoffer (x : State) (ps : Four Port) (m : Monitor) (y : TallyEngine) :
      { x.offer r with ports := ps, monitor := m, tally := y } = { x with ports := ps, monitor := m, tally := y }.offer r := by
    simp [x.offer_with r ps x.pointer m y x.memory]
  rw [State.endTally_eq, hoffer]
  refine State.Moves.trans ?_ (State.moves_offer _ r)
  split
  next hepoch =>
    rw [State.retire_ports] at hepoch
    rw [if_pos hepoch] at hmove
    exact hmove.trans (State.Move.monitor _ _ (.verdict t.agent k)).moves
  next hepoch =>
    rw [State.retire_ports] at hepoch
    rw [if_neg hepoch] at hmove
    exact hmove

/-- A half whose slot is FREE leaves nothing but its retirement. -/
theorem State.moves_retire_freeSlot {s : State} {e : OutEntry} {rest : List OutEntry} {o : Owner} {i : SlotIx}
    (he : s.memory.outstanding = e :: rest) (horigin : e.origin = .tallyRead o i ∨ e.origin = .tallyWrite o i)
    (hfree : s.tally.slots.get i = none) : State.Moves c s s.retire :=
  (State.Move.retireOther s e rest he (.inr ⟨o, i, horigin, hfree⟩)).moves

theorem State.moves_failTally {s : State} {e : OutEntry} {rest : List OutEntry} {o : Owner} {i : SlotIx}
    (he : s.memory.outstanding = e :: rest) (horigin : e.origin = .tallyRead o i ∨ e.origin = .tallyWrite o i) (k : Cause) :
    State.Moves c s (s.retire.failTally i k) := by
  cases ht : s.tally.slots.get i with
  | none => simp only [State.failTally, State.retire_tally, ht]; exact State.moves_retire_freeSlot he horigin ht
  | some t => simp only [State.failTally, State.retire_tally, ht]; exact State.moves_endTally he horigin ht _ _

theorem State.moves_finishTally {s : State} {e : OutEntry} {rest : List OutEntry} {o : Owner} {i : SlotIx}
    (he : s.memory.outstanding = e :: rest) (horigin : e.origin = .tallyRead o i ∨ e.origin = .tallyWrite o i) :
    State.Moves c s (s.retire.finishTally i) := by
  cases ht : s.tally.slots.get i with
  | none => simp only [State.finishTally, State.retire_tally, ht]; exact State.moves_retire_freeSlot he horigin ht
  | some t => simp only [State.finishTally, State.retire_tally, ht]; exact State.moves_endTally he horigin ht _ _

theorem State.moves_readHalfDone {s : State} {e : OutEntry} {rest : List OutEntry} {o : Owner} {i : SlotIx}
    (he : s.memory.outstanding = e :: rest) (horigin : e.origin = .tallyRead o i) (data : BitVec 512) :
    State.Moves c s (s.retire.readHalfDone i data) := by
  cases ht : s.tally.slots.get i with
  | none =>
    simp only [State.readHalfDone, State.retire_tally, ht]
    exact State.moves_retire_freeSlot he (.inl horigin) ht
  | some t =>
    have hmove := (State.Move.retireReadHalf (c := c) s e rest o i t (t.form (laneBytes t.width.bytes data)).1
      (t.form (laneBytes t.width.bytes data)).2 he horigin ht).moves
    simp only [State.readHalfDone, State.retire_tally, ht]
    split
    · exact hmove.trans (State.moves_setFlag _ _)
    · exact hmove

theorem State.moves_retireOkay {s : State} {e : OutEntry} {rest : List OutEntry} (he : s.memory.outstanding = e :: rest)
    (data : BitVec 512) : State.Moves c s (s.retireOkay e data) := by
  unfold State.retireOkay State.okayCompletion
  cases horigin : e.origin with
  | agentRequest o id d trigger =>
    dsimp only
    split
    · exact (State.moves_completeRequest he horigin _ _ _).trans (State.moves_reloadTrigger _)
    · exact State.moves_completeRequest he horigin _ _ _
  | tallyRead o i => exact State.moves_readHalfDone he horigin data
  | tallyWrite o i => exact State.moves_finishTally he (.inr horigin)
  | loaderRead => exact (State.Move.retireOther s e rest he (.inl horigin)).moves.trans (State.moves_loaderRetired _ _)

theorem State.moves_readFailureCleanup (s : State) (o : Owner) : State.Moves c s (s.readFailureCleanup o) := by
  unfold State.readFailureCleanup
  split
  · exact (State.Move.monitor s _ (.removeEntry o.agent o.cell)).moves
  · exact State.Moves.refl s

/-- The flag of a failure is set between retirement and completion; it may as well be set first. -/
theorem State.moves_retireFailed {s : State} {e : OutEntry} {rest : List OutEntry} (he : s.memory.outstanding = e :: rest)
    (f : CauseFlag) (k : Cause) : State.Moves c s (s.retireFailed e f k) := by
  have hflag : State.Moves c s (s.setFlag f) := s.moves_setFlag f
  have he1 : (s.setFlag f).memory.outstanding = e :: rest := he
  refine hflag.trans ?_
  change State.Moves c (s.setFlag f) ((s.setFlag f).retire.failedCompletion e k)
  unfold State.failedCompletion
  cases horigin : e.origin with
  | agentRequest o id d trigger =>
    have hcomplete := (State.moves_completeRequest (c := c) he1 horigin e.tx.dir k []).trans
      (State.moves_offer _ (.ofFault o.agent o.cell o.region k))
    dsimp only
    split
    · exact hcomplete.trans (State.moves_readFailureCleanup _ o)
    · exact hcomplete
  | tallyRead o i => exact State.moves_failTally he1 (.inl horigin) k
  | tallyWrite o i => exact State.moves_failTally he1 (.inr horigin) k
  | loaderRead => exact (State.Move.retireOther _ e rest he1 (.inl horigin)).moves.trans (State.moves_loaderRetired _ _)

theorem State.moves_memoryTimeout (s : State) : State.Moves c s s.memoryTimeout := by
  rcases s.memoryTimeout_cases with ⟨e, rest, he, -, h⟩ | ⟨-, h⟩
  · rw [h]
    exact State.moves_retireFailed he _ _
  · rw [h]
    exact State.Moves.refl s


/-! ### The issue of every waiting write half leaves places, cells and free slots for the request behind them (R119) -/

/-- The tally engine as a granted request finds it: places in use, busy cells and FREE slots. -/
theorem State.issueWriteHalf_resources (s : State) :
    s.issueWriteHalf.placesUsed ≤ s.placesUsed
      ∧ (∀ i, (s.issueWriteHalf.tally.slots.get i).map (·.cell) = (s.tally.slots.get i).map (·.cell)) := by
  rcases s.issueWriteHalf_cases with ⟨-, h⟩ | ⟨i, rest, t, hw, ht, h⟩ | ⟨i, rest, hw, -, h⟩ <;> rw [h]
  · exact ⟨Nat.le_refl _, fun _ => rfl⟩
  · refine ⟨?_, fun j => ?_⟩
    · simp [State.placesUsed, MemoryPort.issue, hw]; omega
    · rw [Four.get_set]
      split
      next hj => rw [hj, ht]; rfl
      next => rfl
  · exact ⟨by simp [State.placesUsed, hw], fun _ => rfl⟩

theorem State.issueWriteHalves_resources (s : State) :
    s.issueWriteHalves.placesUsed ≤ s.placesUsed
      ∧ ∀ i, (s.issueWriteHalves.tally.slots.get i).map (·.cell) = (s.tally.slots.get i).map (·.cell) := by
  unfold State.issueWriteHalves
  generalize s.tally.waiting = w
  induction w generalizing s with
  | nil => exact ⟨Nat.le_refl _, fun _ => rfl⟩
  | cons i rest ih =>
    obtain ⟨hplaces, hcells⟩ := ih s.issueWriteHalf
    obtain ⟨hplaces1, hcells1⟩ := s.issueWriteHalf_resources
    exact ⟨Nat.le_trans hplaces hplaces1, fun j => (hcells j).trans (hcells1 j)⟩

/-- The busy-cell set is read from the slots (R86). -/
theorem TallyEngine.busy_eq_false_iff (e : TallyEngine) (x : Addr) :
    e.busy x = false ↔ ∀ i t, e.slots.get i = some t → t.cell ≠ x := by
  rw [← Bool.not_eq_true]
  simp only [TallyEngine.busy, TallyEngine.busyCells, List.contains_iff_mem, List.mem_filterMap, Four.mem_toList, Option.map_eq_some_iff]
  constructor
  · intro h i t ht hx
    exact h ⟨_, ⟨i, rfl⟩, t, ht, hx⟩
  · rintro h ⟨_, ⟨i, rfl⟩, t, ht, hx⟩
    exact h i t ht hx

theorem TallyEngine.busy_congr {e f : TallyEngine} (h : ∀ i, (e.slots.get i).map (·.cell) = (f.slots.get i).map (·.cell)) (x : Addr) :
    e.busy x = f.busy x := by
  have hlist : e.busyCells = f.busyCells := by
    obtain ⟨h0, h1, h2, h3⟩ := forall_fin_four.1 h
    simp only [Four.get] at h0 h1 h2 h3
    simp [TallyEngine.busyCells, Four.toList, h0, h1, h2, h3, List.filterMap_cons]
  rw [TallyEngine.busy, hlist, TallyEngine.busy]

/-! ### Admission (R112 to R114) -/

/-- What the arbiter asks of a head request (R112). -/
theorem State.candidate_eq_some_iff (s : State) (p : PortIx) (g : Grant) :
    s.candidate p = some g ↔
      ∃ acc rest, (s.ports.get p).queue = acc :: rest ∧ g = { port := p, acc := acc, cls := s.loader.classify p acc.req }
        ∧ s.admits = true ∧ s.resourcesFree g.cls = true := by
  unfold State.candidate
  split
  next hq => simp [hq]
  next acc rest hq =>
    rw [hq]
    constructor
    · intro h
      obtain ⟨hfree, hg⟩ := Option.ite_none_right_eq_some.1 h
      rw [Bool.and_eq_true] at hfree
      cases hg
      exact ⟨acc, rest, rfl, rfl, hfree⟩
    · rintro ⟨_, _, ⟨⟩, rfl, hadmits, hfree⟩
      simp [hadmits, hfree]

theorem State.admits_iff (s : State) : s.admits = true ↔ s.loader.part = .running ∧ s.link.pause = false := by
  simp [State.admits]

/-- The winner is a candidate, its own port's. -/
theorem State.candidate_of_winner {s : State} {g : Grant} (h : s.winner = some g) : s.candidate g.port = some g := by
  obtain ⟨_, k, _, _, hk, _⟩ := List.findSome?_eq_some_iff.1 h
  have hport : g.port = s.pointer + k := by
    obtain ⟨acc, rest, -, rfl, -⟩ := (s.candidate_eq_some_iff _ _).1 hk
    rfl
  rw [hport, hk]

theorem State.offers_of_winner {s : State} {g : Grant} (h : s.winner = some g) : s.Offers g ∧ s.resourcesFree g.cls = true := by
  obtain ⟨acc, rest, hqueue, hg, hadmits, hfree⟩ := (s.candidate_eq_some_iff _ _).1 (State.candidate_of_winner h)
  have hacc : g.acc = acc := by rw [hg]
  have hcls : g.cls = s.loader.classify g.port g.acc.req := by rw [hg]
  exact ⟨⟨⟨rest, by rw [hqueue, hacc]⟩, hcls, (s.admits_iff.1 hadmits).1⟩, hfree⟩

/-- Leaving the queue does not steer what the monitor brings about. -/
theorem State.takeMonitor_leaveQueue (s : State) (g : Grant) (x : MonitorStep) :
    (s.leaveQueue g).takeMonitor x = (s.takeMonitor x).leaveQueue g := by
  rw [State.leaveQueue_eq, State.takeMonitor_with, State.leaveQueue_eq, State.mk.injEq]
  simp

/-- An operation that leaving the queue does not steer may be repeated along a list. -/
theorem State.foldl_leaveQueue {α : Type} {f : State → α → State} (g : Grant)
    (h : ∀ s x, f (s.leaveQueue g) x = (f s x).leaveQueue g) (l : List α) (s : State) :
    l.foldl f (s.leaveQueue g) = (l.foldl f s).leaveQueue g := by
  induction l generalizing s with
  | nil => rfl
  | cons x l ih => rw [List.foldl_cons, List.foldl_cons, h, ih]

/-- The expiries are the same before and after the granted request leaves its queue. -/
theorem State.takeRunOuts_leaveQueue (s : State) (g : Grant) : (s.leaveQueue g).takeRunOuts = s.takeRunOuts.leaveQueue g := by
  unfold State.takeRunOuts
  dsimp only
  rw [State.leaveQueue_monitor, State.foldl_leaveQueue g, State.foldl_leaveQueue g]
  · intro x i
    rw [State.entitlementExpiry, State.leaveQueue_monitor, State.leaveQueue_loader, State.takeMonitor_leaveQueue, State.holdExpiry,
      State.leaveQueue_monitor, State.leaveQueue_loader, State.takeMonitor_leaveQueue]
    rfl
  · intro x e
    exact State.takeMonitor_leaveQueue x g _

theorem State.issueWriteHalves_leaveQueue (s : State) (g : Grant) :
    (s.leaveQueue g).issueWriteHalves = s.issueWriteHalves.leaveQueue g := by
  have hissue := s.issueWriteHalves_with (s.leaveQueue g).ports (s.leaveQueue g).pointer s.monitor s.capture s.attention
  refine hissue.trans ?_
  rw [State.mk.injEq]
  simp [State.leaveQueue, State.updPort]

/-- The write halves issue first, and then the request (R119). -/
theorem State.moves_issueRequest {s : State} {g : Grant} (h : s.Offers g) (hplace : s.placesUsed < Config.places)
    (hdisp : g.cls.disp = .forward ∨ g.cls.disp = .guardedRead ∨ g.cls.disp = .guardedWrite
      ∨ g.cls.disp = .tallyRead ∧ s.tally.busy g.cls.cell = false) : State.Moves .admission s ((s.leaveQueue g).issueRequest g) := by
  obtain ⟨hplaces, hcells⟩ := s.issueWriteHalves_resources
  have hoffers : s.issueWriteHalves.Offers g := ⟨by simpa using h.queued, by simpa using h.classified, by simpa using h.running⟩
  refine s.moves_issueWriteHalves.trans ?_
  have hmove := State.Move.issueRequest s.issueWriteHalves g hoffers (Nat.lt_of_le_of_lt hplaces hplace)
    s.issueWriteHalves_waiting (by rwa [TallyEngine.busy_congr hcells]) rfl
  rw [State.issueRequest, State.issueWriteHalves_leaveQueue, State.leaveQueue_eq]
  exact hmove.moves

theorem State.moves_takeTally {s : State} {g : Grant} {i : SlotIx} (h : s.Offers g) (hplace : s.placesUsed < Config.places)
    (hdisp : g.cls.disp = .tallyWrite) (hbusy : s.tally.busy g.cls.cell = false) (hfree : s.tally.slots.get i = none) :
    State.Moves .admission s ((s.leaveQueue g).takeTally g i) := by
  obtain ⟨hplaces, hcells⟩ := s.issueWriteHalves_resources
  have hoffers : s.issueWriteHalves.Offers g := ⟨by simpa using h.queued, by simpa using h.classified, by simpa using h.running⟩
  have hfree1 : s.issueWriteHalves.tally.slots.get i = none := by
    have := hcells i
    rwa [hfree, Option.map_none, Option.map_eq_none_iff] at this
  refine s.moves_issueWriteHalves.trans ?_
  have hmove := State.Move.takeTally s.issueWriteHalves g i _ hoffers (Nat.lt_of_le_of_lt hplaces hplace)
    s.issueWriteHalves_waiting hdisp (by rwa [TallyEngine.busy_congr hcells]) hfree1 rfl rfl
  rw [State.takeTally, State.issueWriteHalves_leaveQueue, State.leaveQueue_eq]
  exact hmove.moves

theorem State.Offers.takeRunOuts {s : State} {g : Grant} (h : s.Offers g) : s.takeRunOuts.Offers g :=
  ⟨by simpa using h.queued, by simpa using h.classified, by simpa using h.running⟩

theorem State.Offers.takeMonitor {s : State} {g : Grant} (h : s.Offers g) (x : MonitorStep) : (s.takeMonitor x).Offers g :=
  ⟨by simpa using h.queued, by simpa using h.classified, by simpa using h.running⟩

theorem State.placesUsed_congr {s t : State} (hmemory : t.memory = s.memory) (htally : t.tally = s.tally) :
    t.placesUsed = s.placesUsed := by
  rw [State.placesUsed, hmemory, htally, State.placesUsed]

/-- The answer of a granted request, and what the monitor does about it. -/
theorem State.moves_respond {s : State} {g : Grant} (h : s.Offers g) (k : Cause) {x : MonitorStep} (hx : s.MonitorEvent x.monitor) :
    State.Moves c s (((s.leaveQueue g).respond g.port g.acc.id k []).takeMonitor x) := by
  have hmove := (State.Move.answer (c := c) s g k h).moves
  have htake := s.takeMonitor_with x (s.ports.set g.port ((s.ports.get g.port).answeredHead g.acc.id k)) (g.port + 1) s.tally s.memory
  rw [State.respond_leaveQueue, htake]
  refine (State.moves_takeMonitor hx).trans ?_
  have hanswer := (State.Move.answer (c := c) (s.takeMonitor x) g k (h.takeMonitor x)).moves
  simpa using hanswer

/-- The slot a tally takes is FREE (R85). -/
theorem TallyEngine.slot_of_freeSlot {e : TallyEngine} {i : SlotIx} (h : e.freeSlot = some i) : e.slots.get i = none := by
  have hnone := List.find?_some (p := fun i => (e.slots.get i).isNone) h
  simpa using hnone

theorem State.moves_grantEffects {s : State} {g : Grant} (h : s.winner = some g) :
    State.Moves .admission s ((s.leaveQueue g).grantEffects g) := by
  obtain ⟨hoffers, hfree⟩ := State.offers_of_winner h
  unfold State.grantEffects
  cases hdisp : g.cls.disp with
  | answer k => exact State.moves_respond hoffers k (.answer _ _ _ _ _)
  | forward =>
    have hplace : s.placesUsed < Config.places := by simpa [State.resourcesFree, hdisp, State.placeFree] using hfree
    exact State.moves_issueRequest hoffers hplace (.inl hdisp)
  | tallyRead =>
    obtain ⟨hplace, hbusy⟩ : s.placesUsed < Config.places ∧ s.tally.busy g.cls.cell = false := by
      simpa [State.resourcesFree, hdisp, State.placeFree] using hfree
    exact State.moves_issueRequest hoffers hplace (.inr (.inr (.inr ⟨hdisp, hbusy⟩)))
  | tallyWrite =>
    obtain ⟨⟨hplace, hsome⟩, hbusy⟩ :
        (s.placesUsed < Config.places ∧ s.tally.freeSlot.isSome = true) ∧ s.tally.busy g.cls.cell = false := by
      simpa [State.resourcesFree, hdisp, State.placeFree] using hfree
    obtain ⟨i, hslot⟩ := Option.isSome_iff_exists.1 hsome
    simp only [State.leaveQueue_tally, hslot]
    exact State.moves_takeTally hoffers hplace hdisp hbusy (TallyEngine.slot_of_freeSlot hslot)
  | guardedRead =>
    have hplace : s.takeRunOuts.placesUsed < Config.places := by
      rw [State.placesUsed_congr s.takeRunOuts_memory s.takeRunOuts_tally]
      simpa [State.resourcesFree, hdisp, State.placeFree] using hfree
    have hgrant := hoffers.takeRunOuts
    refine s.moves_takeRunOuts.trans ?_
    rw [State.takeRunOuts_leaveQueue, State.takeGuardedRead, State.takeMonitor_leaveQueue]
    exact (State.moves_takeMonitor (.guardedRead g hgrant hdisp)).trans
      (State.moves_issueRequest (hgrant.takeMonitor _)
        (by rwa [State.placesUsed_congr (State.takeMonitor_memory _ _) (State.takeMonitor_tally _ _)]) (.inr (.inl hdisp)))
  | guardedWrite =>
    have hplace : s.takeRunOuts.placesUsed < Config.places := by
      rw [State.placesUsed_congr s.takeRunOuts_memory s.takeRunOuts_tally]
      simpa [State.resourcesFree, hdisp, State.placeFree] using hfree
    have hgrant := hoffers.takeRunOuts
    refine s.moves_takeRunOuts.trans ?_
    rw [State.takeRunOuts_leaveQueue, State.takeGuardedWrite]
    have hstep : (s.takeRunOuts.leaveQueue g).writeStep g = s.takeRunOuts.writeStep g := rfl
    rw [hstep]
    cases hrefusal : (s.takeRunOuts.writeStep g).refusal with
    | some k => exact State.moves_respond hgrant k (.guardedWrite g)
    | none =>
      dsimp only
      rw [State.takeMonitor_leaveQueue]
      exact (State.moves_takeMonitor (.guardedWrite g)).trans
        (State.moves_issueRequest (hgrant.takeMonitor _)
          (by rwa [State.placesUsed_congr (State.takeMonitor_memory _ _) (State.takeMonitor_tally _ _)])
          (.inr (.inr (.inl hdisp))))

/-! ### Every command answers a next state, by moves -/

/-- The outcome `o` of command `c` is a next state reached by its moves. -/
def State.AnswersByMoves (s : State) (c : Instr) (o : Host.Outcome State Fault Refusal) : Prop :=
  ∃ t, o = .next t ∧ State.Moves c s t

theorem State.Moves.answers {s t : State} (h : State.Moves c s t) : s.AnswersByMoves c (.next t) := ⟨t, rfl, h⟩

/-- A link command: an earlier frame ends with its marks, and the effect is taken behind it. -/
theorem State.answers_atPointOfEffect (s : State) {f : State → State} (h : ∀ x, x.attention.marks = none → State.Moves c x (f x)) :
    s.AnswersByMoves c (.next (s.atPointOfEffect f)) := by
  rcases s.atPointOfEffect_cases f with ⟨-, hsame⟩ | ⟨-, heffect⟩
  · rw [hsame]
    exact (State.Moves.refl s).answers
  · rw [heffect]
    exact ((State.Move.link s _ _ .endFrame).moves.trans (h s.endFrame rfl)).answers

/-- The reply of a frame that is no CAUSES frame. -/
theorem State.moves_reply {s : State} (hmarks : s.attention.marks = none) (st : LinkStatus) (data : List Byte) {done : Completion}
    (hdone : ∀ shown, done ≠ .clearCauses shown) : State.Moves c s (s.reply st data done) :=
  (State.Move.link s _ _ (.reply st data done hmarks hdone)).moves

theorem State.moves_ack {s : State} (hmarks : s.attention.marks = none) : State.Moves c s s.ack :=
  State.moves_reply hmarks .ack [] (by simp)

theorem execPowerOnReset_answers (pbase ownp : Fin 4) (prst : BitVec 4) (csLow : Bool) (s : State) :
    s.AnswersByMoves (.powerOnReset pbase ownp prst csLow) (execPowerOnReset pbase ownp prst csLow s) :=
  ⟨_, rfl, (State.Move.powerOn s pbase ownp prst csLow _ rfl rfl).moves⟩

/-- A port reset: the front end, the monitor, and what is reported. -/
theorem execPortReset_answers (p : PortIx) (s : State) : s.AnswersByMoves (.portReset p) (execPortReset p s) := by
  unfold execPortReset
  split
  · exact (State.Moves.refl s).answers
  · refine State.Moves.answers ?_
    have hport := (State.Move.portReset (c := .portReset p) s p rfl).moves
    refine hport.trans ((State.Move.link (s.updPort p Port.reset) _ _ (.cancelClear p)).moves.trans ?_)
    exact (State.moves_takeMonitor (.portReset p _)).trans (State.moves_offer _ _)

theorem execAcceptance_answers (p : PortIx) (r : Req) (s : State) : s.AnswersByMoves c (execAcceptance p r s) := by
  unfold execAcceptance
  split
  next h => exact (State.Move.accept s p r h).moves.answers
  next => exact (State.Moves.refl s).answers

theorem execAdmission_answers (s : State) : s.AnswersByMoves .admission (execAdmission s) := by
  unfold execAdmission
  split
  next g h => exact (State.moves_grantEffects h).answers
  next => exact (State.Moves.refl s).answers

theorem execLoaderReadIssue_answers (s : State) : s.AnswersByMoves .loaderReadIssue (execLoaderReadIssue s) := by
  unfold execLoaderReadIssue
  split
  next => exact (State.Moves.refl s).answers
  next b hreading =>
    split
    next => exact (State.Moves.refl s).answers
    next addr rest hasked =>
      split
      next hplace => exact (State.Move.issueLoaderRead s b addr rest hreading hasked (of_decide_eq_true hplace) rfl).moves.answers
      next => exact (State.Moves.refl s).answers

theorem execMemoryResponse_answers (tag : BitVec 5) (okay : Bool) (data : BitVec 512) (s : State) :
    s.AnswersByMoves c (execMemoryResponse tag okay data s) := by
  unfold execMemoryResponse
  split
  next => exact (State.Moves.refl s).answers
  next e rest he =>
    split
    next =>
      cases okay with
      | true => exact (State.moves_retireOkay he data).answers
      | false => exact (State.moves_retireFailed he _ _).answers
    next => exact (State.Moves.refl s).answers

theorem execFetching_answers (s : State) : s.AnswersByMoves c (execFetching s) := by
  unfold execFetching
  split
  next h => exact (State.Move.loader s _ (.fetch (.inr h.1) h.2)).moves.answers
  next => exact (State.Moves.refl s).answers

theorem execTimeBaseTick_answers (s : State) : s.AnswersByMoves c (execTimeBaseTick s) := by
  have hcount (x : State) : State.Moves c x x.countDown :=
    ((State.Move.monitor x _ .tick).moves.trans (State.Move.countTimer { x with monitor := x.monitor.tick }).moves).trans
      (State.Move.capture _ _ .tick).moves
  exact ((s.moves_takeRunOuts.trans (State.moves_memoryTimeout _)).trans (hcount _)).answers

theorem execCausesCompletion_answers (s : State) : s.AnswersByMoves c (execCausesCompletion s) := by
  unfold execCausesCompletion
  split
  next shown _ => exact (State.Move.link s _ _ (.complete shown)).moves.answers
  all_goals exact (State.Moves.refl s).answers

/-- The clear lowers counters in the monitor and ends its frame. -/
theorem execAgentClear_answers (s : State) : s.AnswersByMoves c (execAgentClear s) := by
  unfold execAgentClear
  split
  next a n k hframe =>
    have hend := (State.Move.link (c := c) s _ _ (.release (by simp [hframe]))).moves
    exact (hend.trans (State.Move.monitor _ _ (.lowerCounters a n k)).moves).answers
  next => exact (State.Moves.refl s).answers
  next hframe => exact (State.Move.link s _ _ (.release (by simp [hframe]))).moves.answers
  all_goals exact (State.Moves.refl s).answers

theorem execAgent_answers (number clear : Byte) (s : State) : s.AnswersByMoves c (execAgent number clear s) := by
  refine s.answers_atPointOfEffect fun x hmarks => ?_
  split
  · split
    · exact State.moves_reply hmarks _ _ (by simp)
    · split <;> exact State.moves_reply hmarks _ _ (by simp)
  · exact State.moves_reply hmarks _ _ (by simp)

theorem execRegion_answers (index : Byte) (s : State) : s.AnswersByMoves c (execRegion index s) := by
  refine s.answers_atPointOfEffect fun x hmarks => ?_
  split <;> exact State.moves_reply hmarks _ _ (by simp)

theorem execCaptureSetup_answers (args : SetupArgs) (s : State) : s.AnswersByMoves c (execCaptureSetup args s) := by
  refine s.answers_atPointOfEffect fun x hmarks => ?_
  split
  · split
    next f _ => exact (State.Move.capture x _ (.setup f)).moves.trans (State.moves_ack hmarks)
    next => exact State.moves_reply hmarks _ _ (by simp)
  · exact State.moves_reply hmarks _ _ (by simp)

theorem execCaptureStop_answers (s : State) : s.AnswersByMoves c (execCaptureStop s) := by
  refine s.answers_atPointOfEffect fun x hmarks => ?_
  split
  · exact State.moves_ack hmarks
  · exact (State.Move.capture x _ .stop).moves.trans ((State.moves_setFlag _ .frozen).trans (State.moves_ack (by simp [hmarks])))

theorem execCaptureRead_answers (start : Byte) (count : BitVec 16) (s : State) :
    s.AnswersByMoves c (execCaptureRead start count s) := by
  refine s.answers_atPointOfEffect fun x hmarks => ?_
  split
  · split <;> exact State.moves_reply hmarks _ _ (by simp)
  · exact State.moves_reply hmarks _ _ (by simp)

/-- A record leaves no marks where there were none. -/
theorem State.offer_marks_none {s : State} (h : s.attention.marks = none) (r : Record) : (s.offer r).attention.marks = none := by
  rcases s.offer_attention_cases r with hsame | hraised
  · rw [hsame, h]
  · rw [hraised, Attention.raise_marks, h]; rfl

theorem execMonitorReset_answers (s : State) : s.AnswersByMoves c (execMonitorReset s) :=
  s.answers_atPointOfEffect fun x hmarks =>
    ((State.Move.monitor x _ .drop).moves.trans (State.moves_offer _ _)).trans
      (State.moves_ack (State.offer_marks_none (s := { x with monitor := x.monitor.drop }) hmarks _))

theorem execBadcmd_answers (byte : Byte) (s : State) : s.AnswersByMoves c (execBadcmd byte s) := by
  unfold execBadcmd
  split
  · exact (State.Moves.refl s).answers
  · exact s.answers_atPointOfEffect fun x hmarks => State.moves_reply hmarks _ _ (by simp)

end

/-- Every command answers a next state, which it reaches by its moves. -/
theorem exec_answers (c : Instr) (s : State) : s.AnswersByMoves c (exec c s) := by
  cases c with
  | powerOnReset pbase ownp prst csLow => exact execPowerOnReset_answers pbase ownp prst csLow s
  | portReset p => exact execPortReset_answers p s
  | prstDeasserted p => exact (State.Move.reopen s p).moves.answers
  | acceptance p r => exact execAcceptance_answers p r s
  | admission => exact execAdmission_answers s
  | writeHalfIssue => exact (State.Move.issueWriteHalf s (.inr rfl)).moves.answers
  | loaderReadIssue => exact execLoaderReadIssue_answers s
  | memoryResponse tag okay data => exact execMemoryResponse_answers tag okay data s
  | memoryTimeout => exact s.moves_memoryTimeout.answers
  | fetching => exact execFetching_answers s
  | responseDeparture p => exact (State.Move.depart s p rfl).moves.answers
  | timeBaseTick => exact execTimeBaseTick_answers s
  | leaseExpiry a x => exact (s.moves_leaseExpiry a x).answers
  | entitlementExpiry i => exact (s.moves_entitlementExpiry i).answers
  | holdLimitExpiry i => exact (s.moves_holdExpiry i).answers
  | causes => exact s.answers_atPointOfEffect fun x _ => (State.Move.link x _ _ (.causes _ _)).moves
  | causesCompletion => exact execCausesCompletion_answers s
  | setmask mask =>
    exact s.answers_atPointOfEffect fun x hmarks => (State.Move.link x _ _ (.mask mask)).moves.trans (State.moves_ack hmarks)
  | agent number clear => exact execAgent_answers number clear s
  | agentClear => exact execAgentClear_answers s
  | region index => exact execRegion_answers index s
  | captureSetup args => exact execCaptureSetup_answers args s
  | captureArm =>
    exact s.answers_atPointOfEffect fun x hmarks => (State.Move.capture x _ .arm).moves.trans (State.moves_ack hmarks)
  | captureStop => exact execCaptureStop_answers s
  | captureRead start count => exact execCaptureRead_answers start count s
  | monitorReset => exact execMonitorReset_answers s
  | halt => exact s.answers_atPointOfEffect fun x hmarks => (State.Move.link x _ _ (.pause true)).moves.trans (State.moves_ack hmarks)
  | resume => exact s.answers_atPointOfEffect fun x hmarks => (State.Move.link x _ _ (.pause false)).moves.trans (State.moves_ack hmarks)
  | badcmd byte => exact execBadcmd_answers byte s
  | frameCutShort | frameCutShortAfterPointOfEffect => exact (State.Move.link s _ _ .endFrame).moves.answers
  | status | reservations | holds =>
    exact s.answers_atPointOfEffect fun x hmarks => State.moves_reply hmarks _ _ (by simp)

/-- A command's next state is reached by its moves. -/
theorem moves_of_exec {c : Instr} {s t : State} (h : exec c s = .next t) : State.Moves c s t := by
  obtain ⟨u, hu, hmoves⟩ := exec_answers c s
  rw [h] at hu
  cases hu
  exact hmoves

/-- A law that reads nothing of the queue and that every move keeps is kept by every step. -/
theorem keep_of_step {P : State → Prop} (hpending : ∀ s rest, P s → P { s with pending := rest })
    (hmove : ∀ c x y, State.Move c x y → P x → P y) {s t : State} (hs : P s) (h : step s = .next t) : P t := by
  unfold step at h
  split at h
  · cases h
    exact hs
  · exact (moves_of_exec h).keep (hmove _) (hpending s _ hs)

/-- Settles O2: no move touches the queue. -/
theorem everyCommandAnswersNext : Obligations.EveryCommandAnswersNext := by
  unfold Obligations.EveryCommandAnswersNext
  intro c s
  obtain ⟨t, ht, hmoves⟩ := exec_answers c s
  refine ⟨t, ht, hmoves.keep (P := fun x => x.pending = s.pending) (fun x y hmove hx => ?_) rfl⟩
  cases hmove with
  | powerOn _ _ _ _ _ hc ht =>
    subst hc
    cases ht
    exact hx
  | issueWriteHalf => rw [State.issueWriteHalf_pending, hx]
  | _ => exact hx

end Sys2Proof.Machine
end

section
-- One theorem at a time: side by side the proofs ask for more threads than the sandbox grants.
set_option Elab.async false

/-! PROOFS. The laws of the capture ring (R149) and of the renewal marks (R172), event by event; then O50. -/
namespace Sys2Proof.Machine

/-! ### The capture ring (R149) -/

/-- A ring without its oldest records still meets the law. -/
theorem Capture.lawful_drop {c : Capture} (h : c.lawful) (n : Nat) : ({ c with ring := c.ring.drop n } : Capture).lawful := by
  obtain ⟨hlength, hseq⟩ := h
  refine ⟨Nat.le_trans (by simp) hlength, fun k x hx => ?_⟩
  rw [List.getElem?_drop] at hx
  rw [← hseq (n + k) x hx, List.length_drop, Nat.sub_sub]

/-- A record joins a ring that has room for it. -/
theorem Capture.lawful_push {c : Capture} (h : c.lawful) (hroom : c.ring.length < Config.ringSize) (t : BitVec 32) (r : Record) :
    ({ c with ring := c.ring ++ [{ seq := c.nextSeq, time := t, record := r }], nextSeq := c.nextSeq + 1 } : Capture).lawful := by
  obtain ⟨-, hseq⟩ := h
  refine ⟨(List.length_append (as := c.ring)).symm ▸ hroom, fun k x hx => ?_⟩
  rw [List.getElem?_append] at hx
  split at hx
  next hk =>
    have hcount : c.ring.length + 1 - k = c.ring.length - k + 1 := by omega
    rw [List.length_append, List.length_singleton, hcount, ← hseq k x hx, BitVec.ofNat_add, BitVec.add_assoc]
    rfl
  next hk =>
    obtain ⟨hlt, rfl⟩ := List.getElem?_eq_some_iff.1 hx
    have hlast : c.ring.length + 1 - k = 1 := by simp at hlt; omega
    simp [hlast]

theorem Capture.append_lawful {c : Capture} (h : c.lawful) (r : Record) : (c.append r).lawful := by
  unfold Capture.append
  split
  next hfull =>
    refine Capture.lawful_push (Capture.lawful_drop h 1) ?_ c.timeBase r
    have hlength := h.1
    have hpos : 0 < Config.ringSize := by decide
    simp only [List.length_drop]
    omega
  next hroom => exact Capture.lawful_push h (Nat.not_le.1 hroom) c.timeBase r

/-- The law speaks of the ring and the sequence counter alone. -/
theorem Capture.lawful_congr {c d : Capture} (hring : d.ring = c.ring) (hseq : d.nextSeq = c.nextSeq) (h : c.lawful) : d.lawful := by
  rwa [Capture.lawful, hring, hseq, ← Capture.lawful]

theorem Capture.lawful_of_empty {c : Capture} (h : c.ring = []) : c.lawful := by
  simp [Capture.lawful, h]

theorem Capture.takeTrigger_lawful {c : Capture} (h : c.lawful) (r : Record) : (c.takeTrigger r).lawful := by
  unfold Capture.takeTrigger
  split
  · exact Capture.lawful_congr rfl rfl (Capture.append_lawful h r)
  · exact Capture.lawful_congr rfl rfl (Capture.append_lawful h r)
  · exact Capture.lawful_congr rfl rfl (Capture.append_lawful (c := { c with ring := [] }) (Capture.lawful_of_empty rfl) r)

theorem Capture.takeRunning_lawful {c : Capture} (h : c.lawful) (r : Record) : (c.takeRunning r).lawful := by
  have hcounted : ({ c with matchCount := c.matchCount + 1 } : Capture).lawful := h
  unfold Capture.takeRunning
  split
  · split
    · exact Capture.takeTrigger_lawful hcounted r
    · exact Capture.append_lawful hcounted r
  · exact Capture.append_lawful h r

theorem Capture.take_lawful {c : Capture} (h : c.lawful) (r : Record) : (c.take r).lawful := by
  unfold Capture.take
  split
  · exact h
  · exact h
  · split
    · exact Capture.takeRunning_lawful h r
    · exact h
  · split
    · exact Capture.lawful_congr (c := c.append r) rfl rfl (Capture.append_lawful h r)
    · exact h

theorem Capture.Event.keeps_lawful {c d : Capture} (hevent : c.Event d) (h : c.lawful) : d.lawful := by
  cases hevent with
  | take r => exact Capture.take_lawful h r
  | arm => exact Capture.lawful_of_empty rfl
  | stop => unfold Capture.stop; split <;> exact h
  | setup | tick => exact h

theorem State.Move.keeps_captureLawful {c : Instr} {s t : State} (hmove : State.Move c s t) (h : s.capture.lawful) :
    t.capture.lawful := by
  cases hmove with
  | capture _ hevent => exact hevent.keeps_lawful h
  | powerOn _ _ _ _ _ hc ht =>
    subst hc
    cases ht
    exact Capture.lawful_of_empty rfl
  | issueWriteHalf => rwa [State.issueWriteHalf_capture]
  | _ => exact h

/-! ### The renewal marks (R172) -/

theorem LinkFrame.cancelClear_clearsCauses_iff (f : LinkFrame) (p : PortIx) :
    (∃ st data shown, f.cancelClear p = .replied st data (.clearCauses shown))
      ↔ ∃ st data shown, f = .replied st data (.clearCauses shown) := by
  unfold LinkFrame.cancelClear
  split
  case h_3 => split <;> simp
  all_goals simp

/-- The law speaks of the frame and the marks alone. -/
theorem State.marksLawful_congr {s t : State} (hframe : t.link.frame = s.link.frame)
    (hmarks : t.attention.marks = s.attention.marks) (h : s.marksLawful) : t.marksLawful := by
  rwa [State.marksLawful, hframe, hmarks, ← State.marksLawful]

theorem State.LinkEvent.keeps_marksLawful {s : State} {l : Link} {a : Attention} (hevent : s.LinkEvent l a) (h : s.marksLawful) :
    ({ s with link := l, attention := a } : State).marksLawful := by
  cases hevent with
  | raise f => simpa [State.marksLawful] using h
  | endFrame => simp [State.marksLawful, Attention.dropMarks]
  | reply st data done hmarks hdone => simp [State.marksLawful, hmarks, hdone]
  | causes data shown => simp [State.marksLawful, Attention.startMarks]
  | complete shown => simp [State.marksLawful, Attention.complete]
  | release hframe =>
    have hmarks : s.attention.marks = none := by simpa [State.marksLawful, hframe] using h
    simp [State.marksLawful, hmarks]
  | cancelClear p => simpa only [State.marksLawful, LinkFrame.cancelClear_clearsCauses_iff] using h
  | mask | pause => exact h

theorem State.Move.keeps_marksLawful {c : Instr} {s t : State} (hmove : State.Move c s t) (h : s.marksLawful) : t.marksLawful := by
  cases hmove with
  | link _ _ hevent => exact hevent.keeps_marksLawful h
  | powerOn _ _ _ csLow _ hc ht =>
    subst hc
    cases ht
    cases csLow <;> simp [State.marksLawful, State.reset]
  | issueWriteHalf =>
    exact State.marksLawful_congr (by rw [State.issueWriteHalf_link]) (by rw [State.issueWriteHalf_attention]) h
  | _ => exact h

/-- Settles O50: every move keeps both laws. -/
theorem captureAndMarksLawsKept : Obligations.CaptureAndMarksLawsKept := by
  unfold Obligations.CaptureAndMarksLawsKept
  exact ⟨fun s t => keep_of_step (P := fun s => s.capture.lawful) (fun _ _ h => h) fun _ _ _ hmove => hmove.keeps_captureLawful,
    fun s t => keep_of_step (P := State.marksLawful) (fun _ _ h => h) fun _ _ _ hmove => hmove.keeps_marksLawful⟩

end Sys2Proof.Machine
end

section
-- One theorem at a time: side by side the proofs ask for more threads than the sandbox grants.
set_option Elab.async false

/-! PROOFS. The laws of the reservation monitor (R21, R25, R35, R58, R65, R70) under each of its operations. While slots stand FREE that a
promotion has still to fill, the law of the wait list holds of the other slots alone. -/
namespace Sys2Proof.Machine

/-! ### The laws while some slots are still to be filled -/

/-- The laws of the monitor, where the slots that `vacant` names may stand FREE in front of waiters. -/
structure Monitor.LawfulUpTo (vacant : SlotIx → Prop) (m : Monitor) : Prop where
  table : m.tableLawful
  loss : m.lossLawful
  slots : m.slotsLawful
  waitNodup : m.waitList.Nodup
  waiting : ∀ a, (m.ctx a).state = .waiting ↔ a ∈ m.waitList
  full : m.waitList ≠ [] → ∀ i, ¬vacant i → (m.slots.get i).isFree = false
  holders : m.holdersLawful
  counters : m.countersLawful

theorem Monitor.lawful_iff_lawfulUpTo (m : Monitor) : m.lawful ↔ m.LawfulUpTo fun _ => False := by
  constructor
  · rintro ⟨htable, hloss, hslots, ⟨hnodup, hwaiting, hfull⟩, hholders, hcounters⟩
    exact ⟨htable, hloss, hslots, hnodup, hwaiting, fun h i _ => hfull h i, hholders, hcounters⟩
  · rintro ⟨htable, hloss, hslots, hnodup, hwaiting, hfull, hholders, hcounters⟩
    exact ⟨htable, hloss, hslots, ⟨hnodup, hwaiting, fun h i => hfull h i id⟩, hholders, hcounters⟩

theorem Monitor.LawfulUpTo.mono {u v : SlotIx → Prop} {m : Monitor} (h : m.LawfulUpTo u)
    (huv : m.waitList ≠ [] → ∀ i, u i → v i) : m.LawfulUpTo v :=
  { h with full := fun hw i hi => h.full hw i fun hu => hi (huv hw i hu) }

variable {vacant : SlotIx → Prop} {m : Monitor}

theorem Monitor.entry_congr {n : Monitor} (h : n.table = m.table) (a : Agent) (x : Addr) : n.entry a x = m.entry a x := by
  rw [Monitor.entry, h, Monitor.entry]

theorem Monitor.findSlot_congr {n : Monitor} (h : n.slots = m.slots) (p : HoldSlot → Bool) : n.findSlot p = m.findSlot p := by
  rw [Monitor.findSlot, h, Monitor.findSlot]

/-! ### Contexts: verdicts and counters -/

/-- A change of contexts that keeps states and loss lists keeps the laws if it keeps the counters in their ranges. -/
theorem Monitor.LawfulUpTo.of_ctx (h : m.LawfulUpTo vacant) {n : Monitor} (htable : n.table = m.table) (hslots : n.slots = m.slots)
    (hwait : n.waitList = m.waitList) (hstate : ∀ a, (n.ctx a).state = (m.ctx a).state) (hloss : ∀ a, (n.ctx a).loss = (m.ctx a).loss)
    (hcounters : n.countersLawful) : n.LawfulUpTo vacant where
  table := by simpa only [Monitor.tableLawful, Monitor.entriesOf, htable] using h.table
  loss := by
    simpa only [Monitor.lossLawful, hloss, Monitor.entry_congr htable, Monitor.findSlot_congr hslots] using h.loss
  slots := by simpa only [Monitor.slotsLawful, hslots, hstate] using h.slots
  waitNodup := by simpa only [hwait] using h.waitNodup
  waiting := by simpa only [hwait, hstate] using h.waiting
  full := by simpa only [hwait, hslots] using h.full
  holders := by simpa only [Monitor.holdersLawful, hslots, Monitor.entry_congr htable] using h.holders
  counters := hcounters

/-- A change of one context that keeps state and loss list. -/
theorem Monitor.LawfulUpTo.updCtx (h : m.LawfulUpTo vacant) (a : Agent) {f : AgentCtx → AgentCtx}
    (hstate : (f (m.ctx a)).state = (m.ctx a).state) (hloss : (f (m.ctx a)).loss = (m.ctx a).loss)
    (hstreak : (f (m.ctx a)).streak ≤ Config.streakTop) (hcommits : (f (m.ctx a)).commits ≤ Config.counterTop)
    (hrefusals : (f (m.ctx a)).refusals ≤ Config.counterTop) : (m.updCtx a f).LawfulUpTo vacant := by
  refine h.of_ctx rfl rfl rfl (fun b => ?_) (fun b => ?_) (fun b => ?_) <;> rw [Monitor.ctx_updCtx] <;> split
  · next hb => rw [hb, hstate]
  · rfl
  · next hb => rw [hb, hloss]
  · rfl
  · exact ⟨hstreak, hcommits, hrefusals⟩
  · exact h.counters b

theorem bump_le {top n : Nat} (h : n ≤ top) : bump top n ≤ top := by
  unfold bump; split <;> omega

theorem Monitor.LawfulUpTo.setVerdict (h : m.LawfulUpTo vacant) (a : Agent) (k : Cause) : (m.setVerdict a k).LawfulUpTo vacant :=
  have ⟨hstreak, hcommits, hrefusals⟩ := h.counters a
  h.updCtx a rfl rfl hstreak hcommits hrefusals

theorem Monitor.LawfulUpTo.countRefusal (h : m.LawfulUpTo vacant) (a : Agent) :
    (m.updCtx a AgentCtx.countRefusal).LawfulUpTo vacant :=
  have ⟨hstreak, hcommits, hrefusals⟩ := h.counters a
  h.updCtx a rfl rfl hstreak hcommits (bump_le hrefusals)

theorem Monitor.LawfulUpTo.countCommit (h : m.LawfulUpTo vacant) (a : Agent) :
    (m.updCtx a AgentCtx.countCommit).LawfulUpTo vacant :=
  have ⟨_, hcommits, hrefusals⟩ := h.counters a
  h.updCtx a rfl rfl (Nat.zero_le _) (bump_le hcommits) hrefusals

theorem Monitor.LawfulUpTo.clearStreak (h : m.LawfulUpTo vacant) (a : Agent) :
    (m.updCtx a fun x => { x with streak := 0 }).LawfulUpTo vacant :=
  have ⟨_, hcommits, hrefusals⟩ := h.counters a
  h.updCtx a rfl rfl (Nat.zero_le _) hcommits hrefusals

theorem Monitor.LawfulUpTo.lowerCounters (h : m.LawfulUpTo vacant) (a : Agent) (n k : Nat) :
    (m.lowerCounters a n k).LawfulUpTo vacant :=
  have ⟨hstreak, hcommits, hrefusals⟩ := h.counters a
  h.updCtx a rfl rfl hstreak (Nat.le_trans (Nat.sub_le _ _) hcommits) (Nat.le_trans (Nat.sub_le _ _) hrefusals)

theorem Monitor.LawfulUpTo.answer (h : m.LawfulUpTo vacant) (a : Agent) (d : Dir) (x : Addr) (r : RegionIx) (k : Cause) :
    (m.answer a d x r k).monitor.LawfulUpTo vacant := by
  unfold Monitor.answer
  cases d with
  | read =>
    dsimp only
    split
    · exact h.countRefusal a
    · exact h
  | write =>
    dsimp only
    split
    · exact (h.setVerdict a k).countRefusal a
    · exact h.setVerdict a k

/-! ### The table (R21, R22) -/

/-- A table whose entries are those of a lawful one, some of them with other leases or gone, keeps the laws if it is lawful itself. -/
theorem Monitor.LawfulUpTo.of_table (h : m.LawfulUpTo vacant) {t : List TableEntry}
    (htable : ({ m with table := t } : Monitor).tableLawful)
    (hsub : ∀ e ∈ t, ∃ f ∈ m.table, f.agent = e.agent ∧ f.cell = e.cell) : ({ m with table := t } : Monitor).LawfulUpTo vacant := by
  have hentry (a : Agent) (x : Addr) (hnone : m.entry a x = none) : ({ m with table := t } : Monitor).entry a x = none := by
    rw [Monitor.entry_none_iff] at hnone ⊢
    intro e he ⟨hagent, hcell⟩
    obtain ⟨f, hf, hfa, hfc⟩ := hsub e he
    exact hnone f hf ⟨hfa.trans hagent, hfc.trans hcell⟩
  refine { h with table := htable, loss := fun a => ?_, holders := fun i a x hi => hentry a x (h.holders i a x hi) }
  obtain ⟨hlength, hdistinct, hcauses, hentries, hheld⟩ := h.loss a
  exact ⟨hlength, hdistinct, hcauses, fun x hx => hentry a x.cell (hentries x hx), hheld⟩

theorem Monitor.tableLawful_of_sublist (h : m.tableLawful) {t : List TableEntry} (hsub : t.Sublist m.table) :
    ({ m with table := t } : Monitor).tableLawful := by
  obtain ⟨hlength, hdistinct, hagents⟩ := h
  exact ⟨Nat.le_trans hsub.length_le hlength, hdistinct.sublist hsub, fun a => Nat.le_trans (hsub.countP_le) (hagents a)⟩

theorem Monitor.LawfulUpTo.sublist (h : m.LawfulUpTo vacant) {t : List TableEntry} (hsub : t.Sublist m.table) :
    ({ m with table := t } : Monitor).LawfulUpTo vacant :=
  h.of_table (Monitor.tableLawful_of_sublist h.table hsub) fun e he => ⟨e, hsub.subset he, rfl, rfl⟩

theorem Monitor.LawfulUpTo.removeEntry (h : m.LawfulUpTo vacant) (a : Agent) (x : Addr) : (m.removeEntry a x).LawfulUpTo vacant :=
  h.sublist List.filter_sublist

/-- A tick changes leases and remaining times alone. -/
theorem Monitor.LawfulUpTo.tickTable (h : m.LawfulUpTo vacant) :
    ({ m with table := m.table.map fun e => { e with lease := e.lease - 1 } } : Monitor).LawfulUpTo vacant := by
  refine h.of_table ?_ fun e he => ?_
  · obtain ⟨hlength, hdistinct, hagents⟩ := h.table
    refine ⟨by simpa using hlength, ?_, fun a => ?_⟩
    · rw [List.pairwise_map]
      exact hdistinct
    · simpa only [Monitor.entriesOf, List.countP_map, Function.comp_def] using hagents a
  · obtain ⟨f, hf, rfl⟩ := List.mem_map.1 he
    exact ⟨f, hf, rfl, rfl⟩

/-- Two entries of one agent on one cell do not stand in a table to which another of the same is added. -/
theorem Monitor.tableLawful_append (h : m.tableLawful) {e : TableEntry} (hnone : m.entry e.agent e.cell = none)
    (hlength : m.table.length < Config.tableSize) (hagent : m.entriesOf e.agent < Config.agentEntries) :
    ({ m with table := m.table ++ [e] } : Monitor).tableLawful := by
  obtain ⟨-, hdistinct, hagents⟩ := h
  refine ⟨(List.length_append (as := m.table)).symm ▸ hlength, ?_, fun a => ?_⟩
  · rw [List.pairwise_append]
    refine ⟨hdistinct, List.pairwise_singleton _ _, fun f hf g hg => ?_⟩
    rw [List.mem_singleton.1 hg]
    exact (m.entry_none_iff _ _).1 hnone f hf
  · rw [Monitor.entriesOf, List.countP_append, List.countP_singleton]
    by_cases ha : e.agent = a
    · subst ha
      simp only [beq_self_eq_true, if_true]
      exact hagent
    · simpa [ha, Monitor.entriesOf] using hagents a

/-- A new entry, on a cell that its agent does not hold and has not lost (R27). -/
theorem Monitor.LawfulUpTo.addEntry (h : m.LawfulUpTo vacant) {e : TableEntry} (hnone : m.entry e.agent e.cell = none)
    (hlength : m.table.length < Config.tableSize) (hagent : m.entriesOf e.agent < Config.agentEntries)
    (hheld : ∀ i, (m.slots.get i).holds e.agent e.cell = false) (hlost : ∀ x ∈ (m.ctx e.agent).loss, x.cell ≠ e.cell) :
    ({ m with table := m.table ++ [e] } : Monitor).LawfulUpTo vacant := by
  have hentry (a : Agent) (x : Addr) (hold : m.entry a x = none) (hne : ¬(e.agent = a ∧ e.cell = x)) :
      ({ m with table := m.table ++ [e] } : Monitor).entry a x = none := by
    rw [Monitor.entry_none_iff] at hold ⊢
    intro f hf
    rcases List.mem_append.1 hf with hf | hf
    · exact hold f hf
    · rw [List.mem_singleton.1 hf]
      exact hne
  refine { h with
    table := Monitor.tableLawful_append h.table hnone hlength hagent
    loss := fun a => ?_
    holders := fun i a x hi => hentry a x (h.holders i a x hi) ?_ }
  · obtain ⟨hlen, hdistinct, hcauses, hentries, hholds⟩ := h.loss a
    refine ⟨hlen, hdistinct, hcauses, fun x hx => hentry a x.cell (hentries x hx) ?_, hholds⟩
    rintro ⟨rfl, hc⟩
    exact hlost x hx hc.symm
  · rintro ⟨rfl, rfl⟩
    have hi : (m.slots.get i).holds e.agent e.cell = true := hi
    rw [hheld i] at hi
    cases hi

/-! ### Loss lists (R35 to R37) -/

theorem insertLoss_pairwise {l : List LossEntry} (x : Addr) (k : Cause) (h : l.Pairwise fun y z => y.cell ≠ z.cell) :
    (insertLoss l x k).Pairwise fun y z => y.cell ≠ z.cell := by
  have happend (l1 : List LossEntry) (hsub : l1.Sublist l) (hne : ∀ y ∈ l1, y.cell ≠ x) :
      (l1 ++ [({ cell := x, cause := k } : LossEntry)]).Pairwise fun y z => y.cell ≠ z.cell := by
    rw [List.pairwise_append]
    refine ⟨h.sublist hsub, List.pairwise_singleton _ _, fun y hy z hz => ?_⟩
    rw [List.mem_singleton.1 hz]
    exact hne y hy
  unfold insertLoss
  split
  · exact happend _ List.filter_sublist fun y hy => by simpa using (List.mem_filter.1 hy).2
  next hnew =>
    have hne : ∀ y ∈ l, y.cell ≠ x := fun y hy hyx => hnew (List.any_eq_true.2 ⟨y, hy, by simpa using hyx⟩)
    split
    · exact happend _ (List.drop_sublist 1 l) fun y hy => hne y (List.mem_of_mem_drop hy)
    · exact happend _ (List.Sublist.refl l) hne

/-- The context of an agent with another loss list. -/
theorem Monitor.LawfulUpTo.updLoss (h : m.LawfulUpTo vacant) (a : Agent) {f : List LossEntry → List LossEntry}
    (hlength : (f (m.ctx a).loss).length ≤ Config.lossSize)
    (hdistinct : (f (m.ctx a).loss).Pairwise fun y z => y.cell ≠ z.cell)
    (hmem : ∀ y ∈ f (m.ctx a).loss, y ∈ (m.ctx a).loss
      ∨ y.cause.isLoss = true ∧ m.entry a y.cell = none ∧ ∀ i, (m.slots.get i).holds a y.cell = false) :
    (m.updCtx a fun x => { x with loss := f x.loss }).LawfulUpTo vacant := by
  have hstate (b : Agent) : ((m.updCtx a fun x => { x with loss := f x.loss }).ctx b).state = (m.ctx b).state := by
    rw [Monitor.ctx_updCtx]; split
    next hb => rw [hb]
    next => rfl
  refine { h with
    loss := fun b => ?_
    slots := by simpa only [Monitor.slotsLawful, Monitor.updCtx_slots, hstate] using h.slots
    waiting := fun b => by rw [hstate]; exact h.waiting b
    counters := fun b => ?_ }
  · rw [Monitor.ctx_updCtx]
    split
    next hb =>
      subst hb
      obtain ⟨-, -, hcauses, hentries, hholds⟩ := h.loss b
      refine ⟨hlength, hdistinct, fun y hy => ?_, fun y hy => ?_, fun y hy => ?_⟩ <;> rcases hmem y hy with hold | ⟨hk, he, hh⟩
      · exact hcauses y hold
      · exact hk
      · exact hentries y hold
      · exact he
      · exact hholds y hold
      · exact (m.findSlot_none (·.holds b y.cell)).2 hh
    next => exact h.loss b
  · rw [Monitor.ctx_updCtx]
    split
    next hb => exact h.counters a
    next => exact h.counters b

/-- An agent loses a cell on which it has no entry and which it does not hold (R36). -/
theorem Monitor.LawfulUpTo.lose (h : m.LawfulUpTo vacant) {a : Agent} {x : Addr} {k : Cause} (hk : k.isLoss = true)
    (hnone : m.entry a x = none) (hheld : ∀ i, (m.slots.get i).holds a x = false) : (m.lose a x k).LawfulUpTo vacant := by
  obtain ⟨hlength, hdistinct, -⟩ := h.loss a
  refine h.updLoss a (f := (insertLoss · x k)) (insertLoss_length x k hlength) (insertLoss_pairwise x k hdistinct) fun y hy => ?_
  rcases mem_insertLoss hy with rfl | ⟨hold, -⟩
  · exact .inr ⟨hk, hnone, hheld⟩
  · exact .inl hold

theorem Monitor.LawfulUpTo.forget (h : m.LawfulUpTo vacant) (a : Agent) (x : Addr) : (m.forget a x).LawfulUpTo vacant := by
  obtain ⟨hlength, hdistinct, -⟩ := h.loss a
  exact h.updLoss a (f := List.filter (·.cell != x)) (Nat.le_trans (List.length_filter_le _ _) hlength) (hdistinct.sublist List.filter_sublist)
    fun y hy => .inl (List.mem_filter.1 hy).1

/-- An entry leaves the table and its cell is lost (R28, R31, R49): its agent does not hold the cell. -/
theorem Monitor.LawfulUpTo.removeEntry_lose (h : m.LawfulUpTo vacant) {a : Agent} {x : Addr} {k : Cause} (hk : k.isLoss = true)
    (hheld : ∀ i, (m.slots.get i).holds a x = false) : ((m.removeEntry a x).lose a x k).LawfulUpTo vacant :=
  (h.removeEntry a x).lose hk (m.entry_removeEntry_self a x) hheld

/-- The agent of a table entry does not hold the cell (R25). -/
theorem Monitor.holds_eq_false_of_mem (h : m.holdersLawful) {e : TableEntry} (he : e ∈ m.table) (i : SlotIx) :
    (m.slots.get i).holds e.agent e.cell = false := by
  refine Classical.byContradiction fun hheld => ?_
  rw [Bool.not_eq_false] at hheld
  exact (m.entry_none_iff _ _).1 (h i _ _ hheld) e he ⟨rfl, rfl⟩

/-! ### The slots and their agents (R65) -/

/-- The state of an agent that occupies the slot. -/
def HoldSlot.seatState : HoldSlot → AgentState
  | .free => .normal
  | .entitled _ _ => .entitled
  | .holding _ _ _ _ => .holding

theorem HoldSlot.seatState_of_agent {x : HoldSlot} {a : Agent} (h : x.agent? = some a) :
    x.seatState = .entitled ∧ x.entitles a = true ∨ x.seatState = .holding ∧ ∃ c, x.holds a c = true := by
  cases x with
  | free => cases h
  | entitled b n => cases h; exact .inl ⟨rfl, by simp [HoldSlot.entitles]⟩
  | holding b c r n => cases h; exact .inr ⟨rfl, c, by simp [HoldSlot.holds]⟩

theorem HoldSlot.seatState_ne {x : HoldSlot} {a : Agent} (h : x.agent? = some a) : x.seatState ≠ .normal ∧ x.seatState ≠ .waiting := by
  rcases HoldSlot.seatState_of_agent h with ⟨h', -⟩ | ⟨h', -⟩ <;> simp [h']

theorem HoldSlot.of_entitles {x : HoldSlot} {a : Agent} (h : x.entitles a = true) : x.agent? = some a ∧ x.seatState = .entitled := by
  obtain ⟨n, rfl⟩ := (x.entitles_iff a).1 h
  exact ⟨rfl, rfl⟩

theorem HoldSlot.of_holds {x : HoldSlot} {a : Agent} {c : Addr} (h : x.holds a c = true) :
    x.agent? = some a ∧ x.cell? = some c ∧ x.seatState = .holding := by
  obtain ⟨r, n, rfl⟩ := (x.holds_iff a c).1 h
  exact ⟨rfl, rfl, rfl⟩

/-- R65 by the agents of the slots: each has the state of its slot, and no other agent is ENTITLED or HOLDING. -/
theorem Monitor.slotsLawful_iff_seats (m : Monitor) :
    m.slotsLawful ↔
      (∀ i j a, (m.slots.get i).agent? = some a → (m.slots.get j).agent? = some a → i = j)
        ∧ (∀ i j c, (m.slots.get i).cell? = some c → (m.slots.get j).cell? = some c → i = j)
        ∧ (∀ i a, (m.slots.get i).agent? = some a → (m.ctx a).state = (m.slots.get i).seatState)
        ∧ ∀ a, (∀ i, (m.slots.get i).agent? ≠ some a) → (m.ctx a).state = .normal ∨ (m.ctx a).state = .waiting := by
  unfold Monitor.slotsLawful
  refine and_congr_right fun hagents => and_congr_right fun _ => ⟨?_, ?_⟩
  · rintro ⟨hent, hhold⟩
    refine ⟨fun i a hi => ?_, fun a ha => ?_⟩
    · rcases HoldSlot.seatState_of_agent hi with ⟨hst, hx⟩ | ⟨hst, c, hx⟩
      · rw [hst]; exact (hent a).2 ⟨i, hx⟩
      · rw [hst]; exact (hhold a).2 ⟨i, c, hx⟩
    · cases hst : (m.ctx a).state with
      | normal => exact .inl rfl
      | waiting => exact .inr rfl
      | entitled =>
        obtain ⟨i, hx⟩ := (hent a).1 hst
        exact absurd (HoldSlot.of_entitles hx).1 (ha i)
      | holding =>
        obtain ⟨i, c, hx⟩ := (hhold a).1 hst
        exact absurd (HoldSlot.of_holds hx).1 (ha i)
  · rintro ⟨hseat, hother⟩
    have hsome (a : Agent) (hst : (m.ctx a).state ≠ .normal ∧ (m.ctx a).state ≠ .waiting) : ∃ i, (m.slots.get i).agent? = some a := by
      refine Classical.byContradiction fun hnone => ?_
      rcases hother a (not_exists.1 hnone) with h | h
      · exact hst.1 h
      · exact hst.2 h
    refine ⟨fun a => ⟨fun hst => ?_, fun ⟨i, hx⟩ => ?_⟩, fun a => ⟨fun hst => ?_, fun ⟨i, c, hx⟩ => ?_⟩⟩
    · obtain ⟨i, hi⟩ := hsome a (by simp [hst])
      have hs := hseat i a hi
      rcases HoldSlot.seatState_of_agent hi with ⟨-, hx⟩ | ⟨hst', -⟩
      · exact ⟨i, hx⟩
      · rw [hst, hst'] at hs; cases hs
    · obtain ⟨ha, hst⟩ := HoldSlot.of_entitles hx
      rw [hseat i a ha, hst]
    · obtain ⟨i, hi⟩ := hsome a (by simp [hst])
      have hs := hseat i a hi
      rcases HoldSlot.seatState_of_agent hi with ⟨hst', -⟩ | ⟨-, c, hx⟩
      · rw [hst, hst'] at hs; cases hs
      · exact ⟨i, c, hx⟩
    · obtain ⟨ha, -, hst⟩ := HoldSlot.of_holds hx
      rw [hseat i a ha, hst]

/-- What a change of states alone leaves of the loss lists and the counters. -/
theorem Monitor.ctx_setAgentState_frame (m : Monitor) (a b : Agent) (st : AgentState) :
    ((m.setAgentState a st).ctx b).loss = (m.ctx b).loss ∧ ((m.setAgentState a st).ctx b).streak = (m.ctx b).streak
      ∧ ((m.setAgentState a st).ctx b).commits = (m.ctx b).commits ∧ ((m.setAgentState a st).ctx b).refusals = (m.ctx b).refusals := by
  rw [Monitor.ctx_setAgentState]
  by_cases h : b = a
  · simp [h]
  · simp [h]

theorem Monitor.state_setAgentState (m : Monitor) (a b : Agent) (st : AgentState) :
    ((m.setAgentState a st).ctx b).state = if b = a then st else (m.ctx b).state := by
  rw [Monitor.ctx_setAgentState]
  by_cases h : b = a
  · simp [h]
  · simp [h]

/-- Slots, wait list and states of a lawful monitor replaced by others that are lawful, where no agent comes to hold a cell on which it has
an entry or which it has lost. -/
theorem Monitor.LawfulUpTo.reseat {u : SlotIx → Prop} (h : m.LawfulUpTo vacant) {n : Monitor} (htable : n.table = m.table)
    (hctx : ∀ b, (n.ctx b).loss = (m.ctx b).loss ∧ (n.ctx b).streak = (m.ctx b).streak ∧ (n.ctx b).commits = (m.ctx b).commits
      ∧ (n.ctx b).refusals = (m.ctx b).refusals)
    (hslots : n.slotsLawful) (hnodup : n.waitList.Nodup) (hwaiting : ∀ a, (n.ctx a).state = .waiting ↔ a ∈ n.waitList)
    (hfull : n.waitList ≠ [] → ∀ i, ¬u i → (n.slots.get i).isFree = false)
    (hheld : ∀ i a x, (n.slots.get i).holds a x = true →
      (∃ j, (m.slots.get j).holds a x = true) ∨ m.entry a x = none ∧ ∀ y ∈ (m.ctx a).loss, y.cell ≠ x) : n.LawfulUpTo u where
  table := by simpa only [Monitor.tableLawful, Monitor.entriesOf, htable] using h.table
  loss := by
    intro a
    obtain ⟨hlength, hdistinct, hcauses, hentries, hholds⟩ := h.loss a
    obtain ⟨hloss, -⟩ := hctx a
    rw [hloss]
    refine ⟨hlength, hdistinct, hcauses, fun x hx => (Monitor.entry_congr htable a x.cell).trans (hentries x hx), fun x hx => ?_⟩
    rw [Monitor.findSlot_none]
    intro i
    refine Classical.byContradiction fun hi => ?_
    rcases hheld i a x.cell (Bool.not_eq_false _ ▸ hi) with ⟨j, hj⟩ | ⟨-, hnot⟩
    · have hnone := (m.findSlot_none (·.holds a x.cell)).1 (hholds x hx) j
      rw [hj] at hnone
      cases hnone
    · exact hnot x hx rfl
  slots := hslots
  waitNodup := hnodup
  waiting := hwaiting
  full := hfull
  holders := by
    intro i a x hi
    rw [Monitor.entry_congr htable]
    rcases hheld i a x hi with ⟨j, hj⟩ | ⟨hnone, -⟩
    · exact h.holders j a x hj
    · exact hnone
  counters := by
    intro a
    obtain ⟨-, hstreak, hcommits, hrefusals⟩ := hctx a
    rw [hstreak, hcommits, hrefusals]
    exact h.counters a

/-- The agent of a slot leaves it (R75, R78, R79): the slot is still to be filled. -/
theorem Monitor.LawfulUpTo.unseat (h : m.LawfulUpTo vacant) {i : SlotIx} {a : Agent} (hi : (m.slots.get i).agent? = some a) :
    ((m.setSlot i .free).setAgentState a .normal).LawfulUpTo fun j => vacant j ∨ j = i := by
  obtain ⟨hagents, hcells, hseat, hother⟩ := m.slotsLawful_iff_seats.1 h.slots
  have hold {α : Type} (f : HoldSlot → Option α) (hfree : f .free = none) (j : SlotIx) (x : α)
      (hj : f ((m.setSlot i .free).slots.get j) = some x) : j ≠ i ∧ f (m.slots.get j) = some x := by
    rw [Monitor.setSlot_get] at hj
    split at hj
    next => rw [hfree] at hj; cases hj
    next hne => exact ⟨hne, hj⟩
  refine h.reseat rfl (fun b => (m.setSlot i .free).ctx_setAgentState_frame a b .normal)
    ((Monitor.slotsLawful_iff_seats _).2 ⟨fun j k b hj hk => ?_, fun j k c hj hk => ?_, fun j b hj => ?_, fun b hb => ?_⟩)
    h.waitNodup (fun b => ?_) (fun hw j hj => ?_) fun j b x hj => ?_
  · exact hagents j k b (hold HoldSlot.agent? rfl j b hj).2 (hold HoldSlot.agent? rfl k b hk).2
  · exact hcells j k c (hold HoldSlot.cell? rfl j c hj).2 (hold HoldSlot.cell? rfl k c hk).2
  · obtain ⟨hne, hj⟩ := hold HoldSlot.agent? rfl j b hj
    have hba : b ≠ a := fun hba => hne (hagents j i a (hba ▸ hj) hi)
    rw [Monitor.state_setAgentState, if_neg hba, Monitor.setAgentState_slots, Monitor.setSlot_get, if_neg hne]
    exact hseat j b hj
  · rw [Monitor.state_setAgentState]
    split
    next => exact .inl rfl
    next hba =>
      refine hother b fun j hj => ?_
      by_cases hji : j = i
      · subst hji
        rw [hi] at hj
        exact hba (Option.some.inj hj).symm
      · refine hb j ?_
        rw [Monitor.setAgentState_slots, Monitor.setSlot_get, if_neg hji, hj]
  · rw [Monitor.state_setAgentState]
    split
    next hba =>
      have hst := hseat i a hi
      have hnot : a ∉ m.waitList := fun hw => by
        rw [(h.waiting a).2 hw] at hst
        exact (HoldSlot.seatState_ne hi).2 hst.symm
      rw [hba]
      exact iff_of_false (by simp) hnot
    next => exact h.waiting b
  · rw [Monitor.setAgentState_slots, Monitor.setSlot_get, if_neg fun hji => hj (.inr hji)]
    exact h.full hw j fun hv => hj (.inl hv)
  · rw [Monitor.setAgentState_slots, Monitor.setSlot_get] at hj
    split at hj
    · cases hj
    · exact .inl ⟨j, hj⟩

/-- A NORMAL agent takes a FREE slot (R67, R71, R73): ENTITLED, or HOLDING a cell that no slot is HOLDING, on which it has neither an entry
nor a loss entry. -/
theorem Monitor.LawfulUpTo.seat (h : m.LawfulUpTo vacant) {i : SlotIx} {a : Agent} {x : HoldSlot} (hfree : m.slots.get i = .free)
    (hnormal : (m.ctx a).state = .normal) (hx : x.agent? = some a)
    (hcell : ∀ c, x.cell? = some c → (∀ j, (m.slots.get j).cell? ≠ some c) ∧ m.entry a c = none ∧ ∀ y ∈ (m.ctx a).loss, y.cell ≠ c) :
    ((m.setSlot i x).setAgentState a x.seatState).LawfulUpTo fun j => vacant j ∧ j ≠ i := by
  obtain ⟨hagents, hcells, hseat, hother⟩ := m.slotsLawful_iff_seats.1 h.slots
  have hnew (j : SlotIx) : (m.slots.get j).agent? ≠ some a := fun hj => by
    exact (HoldSlot.seatState_ne hj).1 ((hseat j a hj).symm.trans hnormal)
  refine h.reseat rfl (fun b => (m.setSlot i x).ctx_setAgentState_frame a b x.seatState)
    ((Monitor.slotsLawful_iff_seats _).2 ⟨fun j k b hj hk => ?_, fun j k c hj hk => ?_, fun j b hj => ?_, fun b hb => ?_⟩)
    h.waitNodup (fun b => ?_) (fun hw j hj => ?_) fun j b y hj => ?_
  · rw [Monitor.setAgentState_slots, Monitor.setSlot_get] at hj hk
    split at hj <;> split at hk
    next hj' hk' => rw [hj', hk']
    next => rw [hx] at hj; exact absurd (hj ▸ hk) (hnew k)
    next => rw [hx] at hk; exact absurd (hk ▸ hj) (hnew j)
    next => exact hagents j k b hj hk
  · rw [Monitor.setAgentState_slots, Monitor.setSlot_get] at hj hk
    split at hj <;> split at hk
    next hj' hk' => rw [hj', hk']
    next => exact absurd hk ((hcell c hj).1 k)
    next => exact absurd hj ((hcell c hk).1 j)
    next => exact hcells j k c hj hk
  · rw [Monitor.setAgentState_slots, Monitor.setSlot_get] at hj ⊢
    rw [Monitor.state_setAgentState]
    split at hj
    next hji => rw [hx] at hj; cases hj; rw [if_pos rfl, if_pos hji]
    next hji =>
      have hba : b ≠ a := fun hba => hnew j (hba ▸ hj)
      rw [if_neg hba, if_neg hji]
      exact hseat j b hj
  · have hba : b ≠ a := fun hba => hb i (by rw [Monitor.setAgentState_slots, Monitor.setSlot_get, if_pos rfl, hx, hba])
    rw [Monitor.state_setAgentState, if_neg hba]
    refine hother b fun j hj => ?_
    have hji : j ≠ i := fun hji => by rw [hji, hfree] at hj; cases hj
    exact hb j (by rw [Monitor.setAgentState_slots, Monitor.setSlot_get, if_neg hji, hj])
  · rw [Monitor.state_setAgentState]
    split
    next hba =>
      have hnot : a ∉ m.waitList := fun hw => by
        have hst := (h.waiting a).2 hw
        rw [hnormal] at hst
        cases hst
      rw [hba]
      exact iff_of_false (HoldSlot.seatState_ne hx).2 hnot
    next => exact h.waiting b
  · rw [Monitor.setAgentState_slots, Monitor.setSlot_get]
    split
    next => cases x with
      | free => cases hx
      | entitled b n => rfl
      | holding b c r n => rfl
    next hji => exact h.full hw j fun hv => hj ⟨hv, hji⟩
  · rw [Monitor.setAgentState_slots, Monitor.setSlot_get] at hj
    split at hj
    next =>
      obtain ⟨hb, hc, -⟩ := HoldSlot.of_holds hj
      rw [hx] at hb
      exact .inr (Option.some.inj hb ▸ (hcell y hc).2)
    next => exact .inl ⟨j, hj⟩

/-! ### The wait list (R68, R70, R71) -/

/-- A NORMAL agent joins the wait list while every slot is in use (R68). -/
theorem Monitor.LawfulUpTo.enqueue (h : m.LawfulUpTo vacant) {a : Agent} (hnormal : (m.ctx a).state = .normal)
    (hfull : ∀ i, (m.slots.get i).isFree = false) :
    (({ m with waitList := m.waitList ++ [a] } : Monitor).setAgentState a .waiting).LawfulUpTo vacant := by
  obtain ⟨hagents, hcells, hseat, hother⟩ := m.slotsLawful_iff_seats.1 h.slots
  have hnew : a ∉ m.waitList := fun hw => by
    have hst := (h.waiting a).2 hw
    rw [hnormal] at hst
    cases hst
  have hstate (b : Agent) :
      ((({ m with waitList := m.waitList ++ [a] } : Monitor).setAgentState a .waiting).ctx b).state
        = if b = a then .waiting else (m.ctx b).state := Monitor.state_setAgentState _ a b _
  refine h.reseat rfl (fun b => Monitor.ctx_setAgentState_frame _ a b _)
    ((Monitor.slotsLawful_iff_seats _).2 ⟨hagents, hcells, fun j b hj => ?_, fun b hb => ?_⟩) ?_ (fun b => ?_)
    (fun _ j _ => hfull j) fun j b x hj => .inl ⟨j, hj⟩
  · have hst := hseat j b hj
    rw [hstate]
    split
    next hba => exact absurd (hst.symm.trans (hba ▸ hnormal)) (HoldSlot.seatState_ne hj).1
    next => exact hst
  · rw [hstate]
    split
    next => exact .inr rfl
    next => exact hother b hb
  · rw [Monitor.setAgentState_waitList, List.nodup_append]
    exact ⟨h.waitNodup, List.pairwise_singleton _ _, fun b hb c hc hbc => hnew (List.mem_singleton.1 hc ▸ hbc ▸ hb)⟩
  · rw [hstate, Monitor.setAgentState_waitList, List.mem_append, List.mem_singleton]
    split
    next hba => simp [hba]
    next hba => simp [hba, h.waiting b]

/-- The oldest waiter leaves the wait list. -/
theorem Monitor.LawfulUpTo.dequeue (h : m.LawfulUpTo vacant) {w : Agent} {rest : List Agent} (hwait : m.waitList = w :: rest) :
    (({ m with waitList := rest } : Monitor).setAgentState w .normal).LawfulUpTo vacant := by
  obtain ⟨hagents, hcells, hseat, hother⟩ := m.slotsLawful_iff_seats.1 h.slots
  obtain ⟨hw, hrest⟩ := List.nodup_cons.1 (hwait ▸ h.waitNodup)
  have hwaiting : (m.ctx w).state = .waiting := (h.waiting w).2 (by simp [hwait])
  have hstate (b : Agent) :
      ((({ m with waitList := rest } : Monitor).setAgentState w .normal).ctx b).state
        = if b = w then .normal else (m.ctx b).state := Monitor.state_setAgentState _ w b _
  refine h.reseat rfl (fun b => Monitor.ctx_setAgentState_frame _ w b _)
    ((Monitor.slotsLawful_iff_seats _).2 ⟨hagents, hcells, fun j b hj => ?_, fun b hb => ?_⟩) hrest (fun b => ?_)
    (fun hne j hj => h.full (by simp [hwait]) j hj) fun j b x hj => .inl ⟨j, hj⟩
  · have hst := hseat j b hj
    rw [hstate]
    split
    next hba => exact absurd (hst.symm.trans (hba ▸ hwaiting)) (HoldSlot.seatState_ne hj).2
    next => exact hst
  · rw [hstate]
    split
    next => exact .inl rfl
    next => exact hother b hb
  · rw [hstate, Monitor.setAgentState_waitList]
    split
    next hbw => exact iff_of_false (by simp) fun hb => hw (hbw ▸ hb)
    next hbw => rw [h.waiting b, hwait]; simp [hbw]

/-- Two changes of one agent's state, with a slot set in between, are the second alone. -/
theorem Monitor.setAgentState_setSlot_setAgentState (m : Monitor) (a : Agent) (i : SlotIx) (x : HoldSlot) (st st' : AgentState) :
    ((m.setAgentState a st).setSlot i x).setAgentState a st' = (m.setSlot i x).setAgentState a st' := by
  simp [Monitor.setAgentState, Monitor.updCtx, Monitor.setSlot, Monitor.ctx]

/-- A NORMAL agent is entitled in a FREE slot (R67). -/
theorem Monitor.LawfulUpTo.entitle (h : m.LawfulUpTo vacant) {i : SlotIx} {a : Agent} (hfree : m.slots.get i = .free)
    (hnormal : (m.ctx a).state = .normal) (limit : Nat) : (m.entitle a i limit).monitor.LawfulUpTo fun j => vacant j ∧ j ≠ i :=
  h.seat hfree hnormal (x := .entitled a limit) rfl fun _ hc => nomatch hc

/-- Promotion fills a FREE slot with the oldest waiter (R71). -/
theorem Monitor.LawfulUpTo.promote (h : m.LawfulUpTo vacant) {i : SlotIx} (hfree : m.slots.get i = .free) (limit : Nat) :
    (m.promote i limit).monitor.LawfulUpTo fun j => vacant j ∧ j ≠ i := by
  rcases m.promote_cases i limit with ⟨hnil, heq⟩ | ⟨w, rest, hwait, heq⟩
  · rw [heq]
    exact h.mono fun hne => absurd hnil hne
  · rw [heq]
    have hnext := (h.dequeue hwait).entitle (a := w) (i := i) hfree (by simp [Monitor.ctx_setAgentState]) limit
    rw [Monitor.entitle, Monitor.setAgentState_setSlot_setAgentState] at hnext
    exact hnext

/-- A slot is released and promotion is taken (R75, R78, R79). -/
theorem Monitor.LawfulUpTo.releaseSlot (h : m.LawfulUpTo vacant) {i : SlotIx} {a : Agent} (hi : (m.slots.get i).agent? = some a)
    (place : Option (Addr × RegionIx)) (k : Cause) (limit : Nat) : (m.releaseSlot i a place k limit).monitor.LawfulUpTo vacant :=
  ((h.unseat hi).promote (by simp [Monitor.setSlot]) limit).mono fun _ j hj => hj.1.resolve_right hj.2

/-- The escalation check and the place it gives (R66 to R68). -/
theorem Monitor.LawfulUpTo.escalationCheck (h : m.LawfulUpTo vacant) (a : Agent) (threshold limit : Nat) :
    (m.escalationCheck a threshold limit).monitor.LawfulUpTo vacant := by
  rcases m.escalationCheck_cases a threshold limit with ⟨-, heq⟩ | ⟨⟨-, hnormal, -⟩, ⟨i, hfound, heq⟩ | ⟨hnone, heq⟩⟩
  · rw [heq]; exact h
  · rw [heq]
    have hfree : m.slots.get i = .free := (HoldSlot.isFree_iff _).1 (Monitor.findSlot_some hfound).1
    exact ((h.clearStreak a).entitle (a := a) hfree (by simpa using hnormal) limit).mono fun _ _ hj => hj.1
  · rw [heq]
    exact (h.clearStreak a).enqueue (a := a) (by simpa using hnormal) ((m.findSlot_none (·.isFree)).1 hnone)

end Sys2Proof.Machine
end

section
-- One theorem at a time: side by side the proofs ask for more threads than the sandbox grants.
set_option Elab.async false

/-! PROOFS. The laws of the reservation monitor are kept by its events, so by every step: O42; the bound of the wait list: O43; and the insertion
of a loss entry: O44. -/
namespace Sys2Proof.Machine

section
variable {vacant : SlotIx → Prop} {m : Monitor}

/-! ### The tick (R30, R72, R79) -/

@[simp] theorem HoldSlot.tick_agent (x : HoldSlot) : x.tick.agent? = x.agent? := by cases x <;> rfl
@[simp] theorem HoldSlot.tick_cell (x : HoldSlot) : x.tick.cell? = x.cell? := by cases x <;> rfl
@[simp] theorem HoldSlot.tick_isFree (x : HoldSlot) : x.tick.isFree = x.isFree := by cases x <;> rfl
@[simp] theorem HoldSlot.tick_entitles (x : HoldSlot) (a : Agent) : x.tick.entitles a = x.entitles a := by cases x <;> rfl
@[simp] theorem HoldSlot.tick_holds (x : HoldSlot) (a : Agent) (c : Addr) : x.tick.holds a c = x.holds a c := by cases x <;> rfl

theorem Monitor.LawfulUpTo.tick (h : m.LawfulUpTo vacant) : m.tick.LawfulUpTo vacant := by
  refine h.tickTable.reseat rfl (fun _ => ⟨rfl, rfl, rfl, rfl⟩) ?_ h.waitNodup h.waiting (fun hne i hi => ?_) fun i a x hx => .inl ⟨i, ?_⟩
  · have hctx (a : Agent) : m.tick.ctx a = m.ctx a := rfl
    have hslots : m.tick.slots = m.slots.map HoldSlot.tick := rfl
    simpa only [Monitor.slotsLawful, hctx, hslots, Four.get_map, HoldSlot.tick_agent, HoldSlot.tick_cell,
      HoldSlot.tick_entitles, HoldSlot.tick_holds] using h.slots
  · simpa [Monitor.tick] using h.full hne i hi
  · simpa [Monitor.tick] using hx

/-! ### Guarded writes (R43 to R57, R78) -/

theorem Monitor.LawfulUpTo.foldl_breakEntry {es : List TableEntry} (h : m.LawfulUpTo vacant)
    (hheld : ∀ e ∈ es, ∀ i, (m.slots.get i).holds e.agent e.cell = false) : (es.foldl Monitor.breakEntry m).LawfulUpTo vacant := by
  induction es generalizing m with
  | nil => exact h
  | cons e es ih =>
    exact ih (h.removeEntry_lose rfl (hheld e List.mem_cons_self)) fun f hf => hheld f (List.mem_cons_of_mem e hf)

theorem Monitor.LawfulUpTo.breakOthers (h : m.LawfulUpTo vacant) (a : Agent) (c : Addr) :
    (m.breakOthers a c).monitor.LawfulUpTo vacant :=
  h.foldl_breakEntry fun _ he => Monitor.holds_eq_false_of_mem h.holders (List.mem_filter.1 he).1

theorem Monitor.LawfulUpTo.commitByEntry (h : m.LawfulUpTo vacant) (a : Agent) (c : Addr) (region : RegionIx) :
    (m.commitByEntry a c region).monitor.LawfulUpTo vacant :=
  ((h.removeEntry a c).countCommit a).breakOthers a c

theorem Monitor.breakOthers_slots (a : Agent) (c : Addr) : (m.breakOthers a c).monitor.slots = m.slots :=
  (Monitor.foldl_breakEntry_frame _ m).1

theorem Monitor.LawfulUpTo.commitByHold (h : m.LawfulUpTo vacant) {a : Agent} {c : Addr} {i : SlotIx}
    (hi : (m.slots.get i).agent? = some a) (region : RegionIx) (limit : Nat) :
    (m.commitByHold a c region i limit).monitor.LawfulUpTo vacant :=
  ((h.countCommit a).breakOthers a c).releaseSlot (by rw [Monitor.breakOthers_slots]; exact hi) none .none limit

theorem Monitor.LawfulUpTo.refuse (h : m.LawfulUpTo vacant) (a : Agent) (c : Addr) (region : RegionIx) (k : Cause)
    (threshold limit : Nat) : (m.refuse a c region k threshold limit).monitor.LawfulUpTo vacant := by
  have hcounted : (m.updCtx a fun x =>
      { x.countRefusal with
        verdict := k
        streak := if k.raisesStreak then bump Config.streakTop x.streak else x.streak }).LawfulUpTo vacant := by
    obtain ⟨hstreak, hcommits, hrefusals⟩ := h.counters a
    refine h.updCtx a rfl rfl ?_ hcommits (bump_le hrefusals)
    dsimp only
    split
    · exact bump_le hstreak
    · exact hstreak
  unfold Monitor.refuse
  dsimp only
  by_cases hk : k.raisesStreak = true
  · rw [if_pos hk]
    exact hcounted.escalationCheck a threshold limit
  · rw [if_neg hk]
    exact hcounted

theorem Monitor.LawfulUpTo.guardedWrite (h : m.LawfulUpTo vacant) (a : Agent) (c : Addr) (region : RegionIx) (threshold limit : Nat) :
    (m.guardedWrite a c region threshold limit).step.monitor.LawfulUpTo vacant := by
  rcases m.guardedWrite_cases a c region threshold limit with ⟨-, heq⟩ | ⟨i, hjudge, heq⟩ | ⟨-, heq⟩ | ⟨k, -, heq⟩ | ⟨-, heq⟩ <;> rw [heq]
  · exact h.refuse a c region .held threshold limit
  · have hi : m.findSlot (·.holds a c) = some i := by
      rcases m.judge_cases a c with ⟨j, -, h'⟩ | ⟨-, ⟨j, hj, h'⟩ | ⟨-, ⟨e, -, h'⟩ | ⟨-, ⟨k, -, h'⟩ | ⟨-, h'⟩⟩⟩⟩ <;>
        rw [h'] at hjudge <;> cases hjudge
      exact hj
    exact h.commitByHold (HoldSlot.of_holds (Monitor.findSlot_some hi).1).1 region limit
  · exact h.commitByEntry a c region
  · exact (h.forget a c).refuse a c region k threshold limit
  · exact h.refuse a c region .noReservation threshold limit

/-! ### Guarded reads (R23 to R28, R73) -/

theorem Monitor.length_removeEntry_lt {e : TableEntry} (he : e ∈ m.table) :
    (m.removeEntry e.agent e.cell).table.length < m.table.length :=
  List.length_filter_lt_length_iff_exists.2 ⟨e, he, by simp [TableEntry.isOf]⟩

theorem filter_filter_comm {α : Type} (p q : α → Bool) (l : List α) : (l.filter q).filter p = (l.filter p).filter q := by
  rw [List.filter_filter, List.filter_filter]
  exact List.filter_congr fun x _ => Bool.and_comm (p x) (q x)

theorem Monitor.entriesOf_removeEntry_lt {e : TableEntry} (he : e ∈ m.table) :
    (m.removeEntry e.agent e.cell).entriesOf e.agent < m.entriesOf e.agent := by
  rw [Monitor.entriesOf, Monitor.entriesOf, List.countP_eq_length_filter, List.countP_eq_length_filter, Monitor.removeEntry_table,
    filter_filter_comm]
  exact List.length_filter_lt_length_iff_exists.2 ⟨e, List.mem_filter.2 ⟨he, by simp⟩, by simp [TableEntry.isOf]⟩

theorem Monitor.LawfulUpTo.ne_of_mem_loss (h : m.LawfulUpTo vacant) {e : TableEntry} (he : e ∈ m.table) {x : LossEntry}
    (hx : x ∈ (m.ctx e.agent).loss) : x.cell ≠ e.cell := by
  obtain ⟨-, -, -, hentries, -⟩ := h.loss e.agent
  intro hcell
  exact (m.entry_none_iff _ _).1 (hentries x hx) e he ⟨rfl, hcell.symm⟩

theorem Monitor.LawfulUpTo.refresh (h : m.LawfulUpTo vacant) {e : TableEntry} (he : e ∈ m.table) (lease : Nat) :
    (m.refresh e lease).LawfulUpTo vacant := by
  obtain ⟨hlength, -, hagents⟩ := h.table
  exact (h.removeEntry e.agent e.cell).addEntry (e := { e with lease := lease }) (m.entry_removeEntry_self _ _)
    (Nat.lt_of_lt_of_le (Monitor.length_removeEntry_lt he) hlength)
    (Nat.lt_of_lt_of_le (Monitor.entriesOf_removeEntry_lt he) (hagents e.agent))
    (Monitor.holds_eq_false_of_mem (e := e) h.holders he) fun x hx => h.ne_of_mem_loss he hx

/-- What a removal makes room for: the law, with room for another entry of the agent on the cell (R27, R28). -/
structure Monitor.RoomFor (vacant : SlotIx → Prop) (m : Monitor) (a : Agent) (c : Addr) : Prop where
  lawful : m.LawfulUpTo vacant
  entry : m.entry a c = none
  table : m.table.length < Config.tableSize
  agents : m.entriesOf a < Config.agentEntries
  held : ∀ i, (m.slots.get i).holds a c = false
  lost : ∀ x ∈ (m.ctx a).loss, x.cell ≠ c

theorem Monitor.RoomFor.addEntry {a : Agent} {c : Addr} (h : m.RoomFor vacant a c) (region lease : Nat) :
    ({ m with table := m.table ++ [{ agent := a, cell := c, region := region, lease := lease }] } : Monitor).LawfulUpTo vacant :=
  h.lawful.addEntry h.entry h.table h.agents h.held h.lost

theorem Monitor.entry_none_of_subset {n : Monitor} {a : Agent} {c : Addr} (hnone : m.entry a c = none) (hsub : n.table ⊆ m.table) :
    n.entry a c = none := by
  rw [Monitor.entry_none_iff] at hnone ⊢
  exact fun e he => hnone e (hsub he)

/-- A loss entry for another cell is no loss entry for this one. -/
theorem Monitor.ne_of_mem_loss_lose {a b : Agent} {c x : Addr} {k : Cause} (hne : ¬(b = a ∧ x = c))
    (h : ∀ y ∈ (m.ctx a).loss, y.cell ≠ c) : ∀ y ∈ ((m.lose b x k).ctx a).loss, y.cell ≠ c := by
  intro y hy
  rw [Monitor.ctx_lose] at hy
  split at hy
  next hab =>
    subst hab
    rcases mem_insertLoss hy with rfl | ⟨hold, -⟩
    · exact fun hx => hne ⟨rfl, hx⟩
    · exact h y hold
  next => exact h y hy

theorem Monitor.LawfulUpTo.makeRoom (h : m.LawfulUpTo vacant) {a : Agent} {c : Addr} (hentry : m.entry a c = none)
    (hheld : ∀ i, (m.slots.get i).holds a c = false) (hlost : ∀ x ∈ (m.ctx a).loss, x.cell ≠ c) :
    (m.makeRoom a).monitor.RoomFor vacant a c := by
  obtain ⟨hlength, hdistinct, hagents⟩ := h.table
  rcases m.makeRoom_cases a with ⟨e, -, hfind, heq⟩ | ⟨e, rest, hfew, -, htable, heq⟩ | ⟨hfew, hroom, heq⟩ <;> rw [heq]
  · have he : e ∈ m.table := List.mem_of_find?_eq_some hfind
    have hagent : e.agent = a := by simpa using List.find?_some hfind
    subst hagent
    refine ⟨h.removeEntry_lose rfl (Monitor.holds_eq_false_of_mem h.holders he), ?_,
      Nat.lt_of_lt_of_le (Monitor.length_removeEntry_lt he) hlength,
      Nat.lt_of_lt_of_le (Monitor.entriesOf_removeEntry_lt he) (hagents e.agent), hheld, ?_⟩
    · exact Monitor.entry_none_of_subset hentry List.filter_sublist.subset
    · exact Monitor.ne_of_mem_loss_lose (fun hne => (m.entry_none_iff _ _).1 hentry e he hne) hlost
  · have he : e ∈ m.table := by simp [htable]
    have hsub : rest.Sublist m.table := htable ▸ List.sublist_cons_self e rest
    have hfirst : ({ m with table := rest } : Monitor).entry e.agent e.cell = none := by
      rw [htable] at hdistinct
      rw [Monitor.entry_none_iff]
      intro f hf hef
      exact (List.pairwise_cons.1 hdistinct).1 f hf ⟨hef.1.symm, hef.2.symm⟩
    refine ⟨(h.sublist hsub).lose rfl hfirst (Monitor.holds_eq_false_of_mem h.holders he), ?_, ?_, ?_, hheld, ?_⟩
    · exact Monitor.entry_none_of_subset hentry hsub.subset
    · exact Nat.lt_of_lt_of_le (by simp [htable]) hlength
    · exact Nat.lt_of_le_of_lt hsub.countP_le hfew
    · exact Monitor.ne_of_mem_loss_lose (fun hne => (m.entry_none_iff _ _).1 hentry e he hne) hlost
  · exact ⟨h, hentry, hroom, hfew, hheld, hlost⟩

theorem Monitor.ne_of_mem_loss_forget (a : Agent) (c : Addr) : ∀ x ∈ ((m.forget a c).ctx a).loss, x.cell ≠ c := by
  intro x hx
  rw [Monitor.ctx_forget, if_pos rfl] at hx
  simpa using (List.mem_filter.1 hx).2

theorem Monitor.LawfulUpTo.create (h : m.LawfulUpTo vacant) {a : Agent} {c : Addr} (hentry : m.entry a c = none)
    (hheld : ∀ i, (m.slots.get i).holds a c = false) (region lease : Nat) :
    (m.create a c region lease).monitor.LawfulUpTo vacant :=
  ((h.forget a c).makeRoom hentry hheld (Monitor.ne_of_mem_loss_forget a c)).addEntry region lease

/-- No slot is HOLDING a cell that is not held. -/
theorem Monitor.cell_ne_of_cellHeld {c : Addr} (h : m.cellHeld c = false) (i : SlotIx) : (m.slots.get i).cell? ≠ some c := by
  intro hi
  have hheld : m.cellHeld c = true := List.any_eq_true.2 ⟨_, (Four.mem_toList _ _).2 ⟨i, rfl⟩, by simp [hi]⟩
  rw [h] at hheld
  cases hheld

/-- Two changes of one slot and of its agent's state are the second alone. -/
theorem Monitor.setSlot_setAgentState_twice (m : Monitor) (a : Agent) (i : SlotIx) (x y : HoldSlot) (st st' : AgentState) :
    (((m.setSlot i x).setAgentState a st).setSlot i y).setAgentState a st' = (m.setSlot i y).setAgentState a st' := by
  rw [Monitor.setAgentState_setSlot_setAgentState]
  simp [Monitor.setSlot]

theorem Monitor.LawfulUpTo.convert (h : m.LawfulUpTo vacant) {a : Agent} {c : Addr} {i : SlotIx} (hi : (m.slots.get i).agent? = some a)
    (hcell : m.cellHeld c = false) (region holdLimit : Nat) : (m.convert a c region holdLimit i).monitor.LawfulUpTo vacant := by
  have hleft := ((h.removeEntry a c).forget a c).unseat (i := i) (a := a) hi
  have hseated := hleft.seat (i := i) (a := a) (x := .holding a c region holdLimit) (by simp [Monitor.setSlot])
    (by rw [Monitor.state_setAgentState, if_pos rfl]) rfl fun d hd => ?_
  · rw [Monitor.setSlot_setAgentState_twice] at hseated
    exact hseated.mono fun _ j hj => hj.1.resolve_right hj.2
  · cases hd
    refine ⟨fun j hj => ?_, m.entry_removeEntry_self a c, fun y hy => ?_⟩
    · rw [Monitor.setAgentState_slots, Monitor.setSlot_get] at hj
      split at hj
      · cases hj
      · exact Monitor.cell_ne_of_cellHeld hcell j hj
    · rw [(Monitor.ctx_setAgentState_frame _ a a .normal).1] at hy
      exact (m.removeEntry a c).ne_of_mem_loss_forget a c y hy

theorem Monitor.LawfulUpTo.guardedRead (h : m.LawfulUpTo vacant) (a : Agent) (c : Addr) (region lease holdLimit : Nat) :
    (m.guardedRead a c region lease holdLimit).monitor.LawfulUpTo vacant := by
  rcases m.guardedRead_cases a c region lease holdLimit with
    ⟨i, hi, hcell, heq⟩ | ⟨-, ⟨i, -, heq⟩ | ⟨e, -, he, heq⟩ | ⟨hheld, hentry, heq⟩⟩ <;> rw [heq]
  · exact h.convert (HoldSlot.of_entitles (Monitor.findSlot_some hi).1).1 hcell region holdLimit
  · exact h
  · exact h.refresh (Monitor.entry_some he).1 lease
  · exact h.create hentry ((m.findSlot_none _).1 hheld) region lease

/-! ### The expiries (R31, R75, R79) -/

theorem Monitor.LawfulUpTo.leaseExpiry (h : m.LawfulUpTo vacant) (a : Agent) (c : Addr) :
    (m.leaseExpiry a c).monitor.LawfulUpTo vacant := by
  rcases m.leaseExpiry_cases a c with ⟨e, he, -, heq⟩ | ⟨-, heq⟩ <;> rw [heq]
  · obtain ⟨hmem, rfl, rfl⟩ := Monitor.entry_some he
    exact h.removeEntry_lose rfl (Monitor.holds_eq_false_of_mem h.holders hmem)
  · exact h

theorem Monitor.LawfulUpTo.entitlementExpiry (h : m.LawfulUpTo vacant) (i : SlotIx) (limit : Nat) :
    (m.entitlementExpiry i limit).monitor.LawfulUpTo vacant := by
  rcases m.entitlementExpiry_cases i limit with ⟨a, hi, heq⟩ | ⟨-, heq⟩ <;> rw [heq]
  · exact h.releaseSlot (by rw [hi]; rfl) none .expired limit
  · exact h

/-- A loss entry and a change of the agent's slot and state commute. -/
theorem Monitor.lose_setSlot_setAgentState (m : Monitor) (a : Agent) (c : Addr) (k : Cause) (i : SlotIx) (x : HoldSlot)
    (st : AgentState) : ((m.lose a c k).setSlot i x).setAgentState a st = ((m.setSlot i x).setAgentState a st).lose a c k := by
  simp [Monitor.setAgentState, Monitor.lose, Monitor.updCtx, Monitor.setSlot, Monitor.ctx]

theorem Monitor.LawfulUpTo.holdExpiry (h : m.LawfulUpTo vacant) (i : SlotIx) (limit : Nat) :
    (m.holdExpiry i limit).monitor.LawfulUpTo vacant := by
  rcases m.holdExpiry_cases i limit with ⟨a, c, r, hi, heq⟩ | ⟨-, heq⟩ <;> rw [heq]
  · obtain ⟨-, hcells, -⟩ := m.slotsLawful_iff_seats.1 h.slots
    have hheld : (m.slots.get i).holds a c = true := by simp [hi, HoldSlot.holds]
    have hlost := (h.unseat (i := i) (a := a) (by rw [hi]; rfl)).lose (k := .expired) (x := c) rfl (h.holders i a c hheld) fun j => ?_
    · rw [← Monitor.lose_setSlot_setAgentState] at hlost
      exact (hlost.promote (by simp [Monitor.setSlot]) limit).mono fun _ j hj => hj.1.resolve_right hj.2
    · rw [Monitor.setAgentState_slots, Monitor.setSlot_get]
      split
      next => rfl
      next hji =>
        refine Classical.byContradiction fun hj => ?_
        exact hji (hcells j i c (HoldSlot.of_holds ((Bool.not_eq_false _).mp hj)).2.1 (HoldSlot.of_holds hheld).2.1)
  · exact h

/-! ### The monitor drop (R41, R63, R83) -/

/-- The law of one loss list (R35), apart from the table and the slots. -/
def lossListLawful (l : List LossEntry) : Prop :=
  l.length ≤ Config.lossSize ∧ l.Pairwise (fun x y => x.cell ≠ y.cell) ∧ ∀ x ∈ l, x.cause.isLoss = true

theorem lossListLawful_insertLoss {l : List LossEntry} (h : lossListLawful l) (x : Addr) {k : Cause} (hk : k.isLoss = true) :
    lossListLawful (insertLoss l x k) := by
  obtain ⟨hlength, hdistinct, hcauses⟩ := h
  refine ⟨insertLoss_length x k hlength, insertLoss_pairwise x k hdistinct, fun y hy => ?_⟩
  rcases mem_insertLoss hy with rfl | ⟨hold, -⟩
  · exact hk
  · exact hcauses y hold

/-- Loss lists and counters in their ranges, for every agent: what a drop relies on and keeps until the states go to NORMAL. -/
def Monitor.ctxsLawful (m : Monitor) : Prop := (∀ a, lossListLawful (m.ctx a).loss) ∧ m.countersLawful

theorem Monitor.ctxsLawful.lose (h : m.ctxsLawful) (a : Agent) (x : Addr) {k : Cause} (hk : k.isLoss = true) :
    (m.lose a x k).ctxsLawful := by
  obtain ⟨hloss, hcounters⟩ := h
  refine ⟨fun b => ?_, fun b => ?_⟩ <;> rw [Monitor.ctx_lose] <;> split
  · exact lossListLawful_insertLoss (hloss a) x hk
  · exact hloss b
  · exact hcounters a
  · exact hcounters b

theorem Monitor.ctxsLawful.foldl_lose {es : List TableEntry} (h : m.ctxsLawful) :
    (es.foldl (fun x e => x.lose e.agent e.cell .dropped) m).ctxsLawful := by
  induction es generalizing m with
  | nil => exact h
  | cons e es ih => exact ih (h.lose e.agent e.cell rfl)

theorem Monitor.ctxsLawful.dropSlot (h : m.ctxsLawful) (i : SlotIx) : (m.dropSlot i).ctxsLawful := by
  unfold Monitor.dropSlot
  split
  · exact h
  · exact h
  · exact Monitor.ctxsLawful.lose (m := m.setSlot i .free) h _ _ rfl

/-- The drop of a slot leaves it FREE and touches no other. -/
theorem Monitor.dropSlot_slots (m : Monitor) (i : SlotIx) : (m.dropSlot i).slots = m.slots.set i .free := by
  unfold Monitor.dropSlot
  split
  next hi => rw [← hi, Four.set_get]
  · rfl
  · rfl

theorem Monitor.drop_slots (m : Monitor) (i : SlotIx) : m.drop.slots.get i = .free := by
  revert i
  rw [forall_fin_four]
  simp [Monitor.drop, Monitor.dropSlot_slots, Four.get_set]

theorem Monitor.drop_waitList (m : Monitor) : m.drop.waitList = [] := rfl

theorem Monitor.LawfulUpTo.drop (h : m.LawfulUpTo vacant) : m.drop.LawfulUpTo vacant := by
  have hlist (a : Agent) : lossListLawful (m.ctx a).loss :=
    have ⟨hlength, hdistinct, hcauses, _⟩ := h.loss a
    ⟨hlength, hdistinct, hcauses⟩
  have hkept : ([0, 1, 2, 3].foldl Monitor.dropSlot
      (m.table.foldl (fun x e => x.lose e.agent e.cell .dropped) { m with table := [] })).ctxsLawful :=
    ((((Monitor.ctxsLawful.foldl_lose (m := { m with table := [] }) ⟨hlist, h.counters⟩).dropSlot 0).dropSlot 1).dropSlot 2).dropSlot 3
  have hctx (a : Agent) : m.drop.ctx a =
      { ([0, 1, 2, 3].foldl Monitor.dropSlot
          (m.table.foldl (fun x e => x.lose e.agent e.cell .dropped) { m with table := [] })).ctx a with
        state := .normal, streak := 0 } := Monitor.ctx_mapCtxs _ _ a
  have hentry (a : Agent) (x : Addr) : m.drop.entry a x = none := by simp [Monitor.entry]
  constructor
  case table => simp [Monitor.tableLawful, Monitor.entriesOf]
  case loss =>
    intro a
    obtain ⟨hlength, hdistinct, hcauses⟩ := hkept.1 a
    rw [hctx]
    exact ⟨hlength, hdistinct, hcauses, fun x _ => hentry a x.cell,
      fun x _ => (m.drop.findSlot_none _).2 fun i => by rw [Monitor.drop_slots]; rfl⟩
  case slots =>
    refine (Monitor.slotsLawful_iff_seats _).2 ⟨fun i j a hi => ?_, fun i j c hi => ?_, fun i a hi => ?_, fun a _ => .inl ?_⟩
    · rw [Monitor.drop_slots] at hi; cases hi
    · rw [Monitor.drop_slots] at hi; cases hi
    · rw [Monitor.drop_slots] at hi; cases hi
    · rw [hctx]
  case waitNodup => exact List.nodup_nil
  case waiting => intro a; rw [hctx]; simp [Monitor.drop_waitList]
  case full => exact fun hne => absurd m.drop_waitList hne
  case holders => exact fun i a x _ => hentry a x
  case counters =>
    intro a
    obtain ⟨-, hcommits, hrefusals⟩ := hkept.2 a
    rw [hctx]
    exact ⟨Nat.zero_le _, hcommits, hrefusals⟩

/-! ### The port reset (R40, R62, R82) -/

/-- Does the slot's agent belong to the port? -/
def HoldSlot.inPort (x : HoldSlot) (p : PortIx) : Prop := ∃ a, x.agent? = some a ∧ portOf a = p

/-- The monitor with slot `i` FREE if its agent belongs to port `p`. -/
def Monitor.clearSlot (p : PortIx) (m : Monitor) (i : SlotIx) : Monitor :=
  match (m.slots.get i).agent? with
  | some a => if portOf a = p then m.setSlot i .free else m
  | none => m

theorem Monitor.clearSlot_eq (p : PortIx) (m : Monitor) (i : SlotIx) :
    ((m.slots.get i).inPort p ∧ m.clearSlot p i = m.setSlot i .free) ∨ (¬(m.slots.get i).inPort p ∧ m.clearSlot p i = m) := by
  unfold Monitor.clearSlot HoldSlot.inPort
  cases (m.slots.get i).agent? with
  | none => simp
  | some a => by_cases ha : portOf a = p <;> simp [ha]

/-- The monitor with the slots among `is` FREE whose agents belong to port `p`. -/
def Monitor.clearSlots (p : PortIx) (m : Monitor) (is : List SlotIx) : Monitor := is.foldl (Monitor.clearSlot p) m

theorem Monitor.clearSlot_frame (p : PortIx) (m : Monitor) (i : SlotIx) :
    (m.clearSlot p i).table = m.table ∧ (m.clearSlot p i).waitList = m.waitList ∧ ∀ a, (m.clearSlot p i).ctx a = m.ctx a := by
  rcases m.clearSlot_eq p i with ⟨-, heq⟩ | ⟨-, heq⟩ <;> rw [heq] <;> exact ⟨rfl, rfl, fun _ => rfl⟩

theorem Monitor.clearSlots_frame (p : PortIx) (is : List SlotIx) (m : Monitor) :
    (m.clearSlots p is).table = m.table ∧ (m.clearSlots p is).waitList = m.waitList ∧ ∀ a, (m.clearSlots p is).ctx a = m.ctx a := by
  induction is generalizing m with
  | nil => exact ⟨rfl, rfl, fun _ => rfl⟩
  | cons i is ih =>
    obtain ⟨htable, hwait, hctx⟩ := ih (m.clearSlot p i)
    obtain ⟨htable', hwait', hctx'⟩ := m.clearSlot_frame p i
    exact ⟨htable.trans htable', hwait.trans hwait', fun a => (hctx a).trans (hctx' a)⟩

theorem mem_slots (j : SlotIx) : j ∈ ([0, 1, 2, 3] : List SlotIx) := by revert j; decide

theorem Monitor.clearSlots_get_of_notMem (p : PortIx) {is : List SlotIx} {j : SlotIx} (hj : j ∉ is) (m : Monitor) :
    (m.clearSlots p is).slots.get j = m.slots.get j := by
  induction is generalizing m with
  | nil => rfl
  | cons i is ih =>
    obtain ⟨hne, hj⟩ := not_or.1 ((not_congr List.mem_cons).1 hj)
    refine (ih hj (m.clearSlot p i)).trans ?_
    rcases m.clearSlot_eq p i with ⟨-, heq⟩ | ⟨-, heq⟩
    · rw [heq, Monitor.setSlot_get, if_neg hne]
    · rw [heq]

theorem Monitor.clearSlot_get_of_ne (p : PortIx) {i j : SlotIx} (hne : j ≠ i) (m : Monitor) :
    (m.clearSlot p i).slots.get j = m.slots.get j := m.clearSlots_get_of_notMem p (is := [i]) (by simpa using hne)

/-- Promotion for slot `i` reads and writes no other slot. -/
theorem Monitor.promote_setSlot (m : Monitor) {i j : SlotIx} (hne : j ≠ i) (x : HoldSlot) (limit : Nat) :
    ((m.setSlot j x).promote i limit).monitor = ((m.promote i limit).monitor).setSlot j x := by
  have hcomm (y : HoldSlot) : (m.slots.set j x).set i y = (m.slots.set i y).set j x := Four.eq_of_get fun k => by
    rw [Four.get_set, Four.get_set, Four.get_set, Four.get_set]
    by_cases hki : k = i
    · rw [if_pos hki, if_neg (hki ▸ hne.symm), if_pos hki]
    · rw [if_neg hki, if_neg hki]
  unfold Monitor.promote
  cases hwait : m.waitList with
  | nil => simp [hwait]
  | cons w rest => simp [hwait, Monitor.entitle, Monitor.setAgentState, Monitor.updCtx, Monitor.setSlot, Monitor.ctx, hcomm]

theorem Monitor.promote_get_of_ne (m : Monitor) {i j : SlotIx} (hne : j ≠ i) (limit : Nat) :
    (m.promote i limit).monitor.slots.get j = m.slots.get j := by
  rcases m.promote_cases i limit with ⟨-, heq⟩ | ⟨w, rest, -, heq⟩ <;> rw [heq]
  rw [Monitor.setAgentState_slots, Monitor.setSlot_get, if_neg hne]

theorem Monitor.promote_clearSlots (p : PortIx) {is : List SlotIx} {i : SlotIx} (hi : i ∉ is) (m : Monitor) (limit : Nat) :
    ((m.clearSlots p is).promote i limit).monitor = (m.promote i limit).monitor.clearSlots p is := by
  induction is generalizing m with
  | nil => rfl
  | cons j is ih =>
    obtain ⟨hne, hi⟩ := not_or.1 ((not_congr List.mem_cons).1 hi)
    refine (ih hi (m.clearSlot p j)).trans (congrArg (Monitor.clearSlots p · is) ?_)
    have hsame := m.promote_get_of_ne (i := i) (j := j) (Ne.symm hne) limit
    unfold Monitor.clearSlot
    rw [hsame]
    split
    · split
      · exact m.promote_setSlot (Ne.symm hne) .free limit
      · rfl
    · rfl

/-- A slot of the port is freed and promoted; any other stays (R82). -/
theorem Monitor.freeForReset_monitor (p : PortIx) (limit : Nat) (st : MonitorStep) (i : SlotIx) :
    ((st.monitor.slots.get i).inPort p
        ∧ (Monitor.freeForReset p limit st i).monitor = ((st.monitor.clearSlot p i).promote i limit).monitor)
      ∨ (¬(st.monitor.slots.get i).inPort p ∧ (Monitor.freeForReset p limit st i).monitor = st.monitor) := by
  unfold Monitor.freeForReset Monitor.clearSlot HoldSlot.inPort
  cases (st.monitor.slots.get i).agent? with
  | none => simp
  | some a => by_cases ha : portOf a = p <;> simp [ha]

/-- Freeing the slots one by one, each with its promotion, from a monitor that is lawful once they are all freed. -/
theorem Monitor.LawfulUpTo.foldl_freeForReset (p : PortIx) (limit : Nat) {is : List SlotIx} (hnodup : is.Nodup) (st : MonitorStep)
    (h : (st.monitor.clearSlots p is).LawfulUpTo fun j => j ∈ is ∧ (st.monitor.slots.get j).inPort p) :
    (is.foldl (Monitor.freeForReset p limit) st).monitor.LawfulUpTo fun _ => False := by
  induction is generalizing st with
  | nil => exact h.mono fun _ j hj => nomatch hj.1
  | cons i is ih =>
    obtain ⟨hi, hnodup⟩ := List.nodup_cons.1 hnodup
    refine ih hnodup _ ?_
    rcases Monitor.freeForReset_monitor p limit st i with ⟨hport, heq⟩ | ⟨hport, heq⟩
    · rw [heq, ← Monitor.promote_clearSlots p hi]
      have hfree : ((st.monitor.clearSlot p i).clearSlots p is).slots.get i = .free := by
        rw [Monitor.clearSlots_get_of_notMem p hi]
        rcases st.monitor.clearSlot_eq p i with ⟨-, heq⟩ | ⟨hnot, -⟩
        · rw [heq, Monitor.setSlot_get, if_pos rfl]
        · exact absurd hport hnot
      refine (Monitor.LawfulUpTo.promote h hfree limit).mono fun _ j ⟨⟨hj, hjport⟩, hne⟩ => ?_
      rw [Monitor.promote_get_of_ne _ hne, Monitor.clearSlot_get_of_ne p hne]
      exact ⟨(List.mem_cons.1 hj).resolve_left hne, hjport⟩
    · rw [heq]
      have hsame : st.monitor.clearSlot p i = st.monitor := by
        rcases st.monitor.clearSlot_eq p i with ⟨hnot, -⟩ | ⟨-, heq⟩
        · exact absurd hnot hport
        · exact heq
      have hrest : (st.monitor.clearSlots p (i :: is)) = st.monitor.clearSlots p is := by
        rw [Monitor.clearSlots, List.foldl_cons, hsame, ← Monitor.clearSlots]
      rw [hrest] at h
      refine h.mono fun _ j ⟨hj, hjport⟩ => ⟨(List.mem_cons.1 hj).resolve_left fun hji => hport (hji ▸ hjport), hjport⟩

/-- The monitor in which the agents of a port have lost all but their slots (R40, R62, R82 step 1). -/
def Monitor.forgetPort (m : Monitor) (p : PortIx) : Monitor :=
  { m with
    table := m.table.filter fun e => portOf e.agent != p
    waitList := m.waitList.filter fun a => portOf a != p
    ctxs := m.ctxs.set p (Four.all AgentCtx.powerOn) }

theorem Monitor.portReset_eq (m : Monitor) (p : PortIx) (limit : Nat) :
    m.portReset p limit = [0, 1, 2, 3].foldl (Monitor.freeForReset p limit) { monitor := m.forgetPort p, records := [] } := rfl

theorem Monitor.ctx_forgetPort (m : Monitor) (p : PortIx) (a : Agent) :
    (m.forgetPort p).ctx a = if portOf a = p then AgentCtx.powerOn else m.ctx a := by
  unfold Monitor.forgetPort Monitor.ctx
  rw [Four.get_set]
  split
  · rw [Four.get_all]
  · rfl

/-- A slot of the port is FREE once all are cleared, and any other is as it was. -/
theorem Monitor.clearSlots_get (p : PortIx) (m : Monitor) (j : SlotIx) :
    (m.clearSlots p [0, 1, 2, 3]).slots.get j = .free ∧ (m.slots.get j).inPort p
      ∨ (m.clearSlots p [0, 1, 2, 3]).slots.get j = m.slots.get j ∧ ¬(m.slots.get j).inPort p := by
  obtain ⟨before, after, hsplit, hbefore, hafter⟩ : ∃ before after : List SlotIx,
      ([0, 1, 2, 3] : List SlotIx) = before ++ j :: after ∧ j ∉ before ∧ j ∉ after := by
    revert j
    rw [forall_fin_four]
    exact ⟨⟨[], [1, 2, 3], rfl, by decide, by decide⟩, ⟨[0], [2, 3], rfl, by decide, by decide⟩,
      ⟨[0, 1], [3], rfl, by decide, by decide⟩, ⟨[0, 1, 2], [], rfl, by decide, by decide⟩⟩
  have hfirst := m.clearSlots_get_of_notMem p hbefore
  have heq : m.clearSlots p [0, 1, 2, 3] = (((m.clearSlots p before).clearSlot p j).clearSlots p after) := by
    rw [hsplit, Monitor.clearSlots, List.foldl_append, List.foldl_cons, ← Monitor.clearSlots, ← Monitor.clearSlots]
  rw [heq, Monitor.clearSlots_get_of_notMem p hafter, ← hfirst]
  rcases (m.clearSlots p before).clearSlot_eq p j with ⟨hport, heq⟩ | ⟨hport, heq⟩ <;> rw [heq]
  · exact .inl ⟨by rw [Monitor.setSlot_get, if_pos rfl], hport⟩
  · exact .inr ⟨rfl, hport⟩

theorem Monitor.LawfulUpTo.portReset (h : m.LawfulUpTo fun _ => False) (p : PortIx) (limit : Nat) :
    (m.portReset p limit).monitor.LawfulUpTo fun _ => False := by
  rw [Monitor.portReset_eq]
  refine Monitor.LawfulUpTo.foldl_freeForReset p limit (by decide) _ ?_
  obtain ⟨htable, hwait, hctx⟩ := (m.forgetPort p).clearSlots_frame p [0, 1, 2, 3]
  have hget := (m.forgetPort p).clearSlots_get p
  obtain ⟨hagents, hcells, hseat, hother⟩ := m.slotsLawful_iff_seats.1 h.slots
  have hold {α : Type} (f : HoldSlot → Option α) (hfree : f .free = none) (j : SlotIx) (x : α)
      (hj : f (((m.forgetPort p).clearSlots p [0, 1, 2, 3]).slots.get j) = some x) :
      f (m.slots.get j) = some x ∧ ¬(m.slots.get j).inPort p := by
    rcases hget j with ⟨heq, -⟩ | ⟨heq, hport⟩
    · rw [heq, hfree] at hj; cases hj
    · rw [heq] at hj; exact ⟨hj, hport⟩
  have hsub : (m.table.filter fun e => portOf e.agent != p).Sublist m.table := List.filter_sublist
  have hentry (a : Agent) (x : Addr) (hnone : m.entry a x = none) :
      ((m.forgetPort p).clearSlots p [0, 1, 2, 3]).entry a x = none := by
    refine Monitor.entry_none_of_subset hnone ?_
    rw [htable]
    exact hsub.subset
  have hheld (j : SlotIx) (a : Agent) (x : Addr)
      (hj : (((m.forgetPort p).clearSlots p [0, 1, 2, 3]).slots.get j).holds a x = true) : (m.slots.get j).holds a x = true := by
    rcases hget j with ⟨heq, -⟩ | ⟨heq, -⟩ <;> rw [heq] at hj
    · cases hj
    · exact hj
  have hctx (a : Agent) : ((m.forgetPort p).clearSlots p [0, 1, 2, 3]).ctx a = if portOf a = p then AgentCtx.powerOn else m.ctx a :=
    (hctx a).trans (m.ctx_forgetPort p a)
  constructor
  case table =>
    have hkept := Monitor.tableLawful_of_sublist h.table hsub
    rw [Monitor.tableLawful] at hkept ⊢
    unfold Monitor.entriesOf at hkept ⊢
    rw [htable]
    exact hkept
  case loss =>
    intro a
    rw [hctx]
    split
    · simp [AgentCtx.powerOn]
    · obtain ⟨hlength, hdistinct, hcauses, hentries, hholds⟩ := h.loss a
      refine ⟨hlength, hdistinct, hcauses, fun x hx => hentry a x.cell (hentries x hx), fun x hx => ?_⟩
      rw [Monitor.findSlot_none]
      intro j
      have hj := (m.findSlot_none (·.holds a x.cell)).1 (hholds x hx) j
      rw [← Bool.not_eq_true] at hj ⊢
      exact fun hheld' => hj (hheld j a x.cell hheld')
  case slots =>
    refine (Monitor.slotsLawful_iff_seats _).2 ⟨fun i j a hi hj => ?_, fun i j c hi hj => ?_, fun i a hi => ?_, fun a ha => ?_⟩
    · exact hagents i j a (hold HoldSlot.agent? rfl i a hi).1 (hold HoldSlot.agent? rfl j a hj).1
    · exact hcells i j c (hold HoldSlot.cell? rfl i c hi).1 (hold HoldSlot.cell? rfl j c hj).1
    · obtain ⟨hi', hport⟩ := hold HoldSlot.agent? rfl i a hi
      rw [hctx, if_neg fun hap => hport ⟨a, hi', hap⟩, hseat i a hi']
      rcases hget i with ⟨-, hin⟩ | ⟨heq, -⟩
      · exact absurd hin hport
      · rw [heq]; rfl
    · rw [hctx]
      split
      · exact .inl rfl
      next hap =>
        refine hother a fun i hi => ?_
        rcases hget i with ⟨-, b, hb, hbp⟩ | ⟨heq, -⟩
        · have hb' : (m.slots.get i).agent? = some b := hb
          rw [hi] at hb'
          exact hap (Option.some.inj hb' ▸ hbp)
        · exact ha i (heq ▸ hi)
  case waitNodup => rw [hwait]; exact h.waitNodup.filter _
  case waiting =>
    intro a
    rw [hctx, hwait]
    have hleft : a ∈ (m.forgetPort p).waitList ↔ a ∈ m.waitList ∧ portOf a ≠ p := by simp [Monitor.forgetPort]
    rw [hleft]
    split
    next hap => exact iff_of_false (by simp [AgentCtx.powerOn]) fun hw => hw.2 hap
    next hap => rw [h.waiting a]; exact (and_iff_left hap).symm
  case full =>
    rw [hwait]
    intro hne j hj
    have hall : (m.slots.get j).isFree = false := h.full (fun hnil => hne (by simp [Monitor.forgetPort, hnil])) j id
    rcases hget j with ⟨-, hport⟩ | ⟨heq, -⟩
    · exact absurd ⟨mem_slots j, hport⟩ hj
    · rw [heq]; exact hall
  case holders => exact fun i a x hi => hentry a x (h.holders i a x (hheld i a x hi))
  case counters =>
    intro a
    rw [hctx]
    split
    · exact ⟨Nat.zero_le _, Nat.zero_le _, Nat.zero_le _⟩
    · exact h.counters a

end

/-! ### Every step (O42), and the bound of the wait list (O43) -/

theorem State.MonitorEvent.keeps_lawful {s : State} {m : Monitor} (hevent : s.MonitorEvent m) (h : s.monitor.lawful) : m.lawful := by
  rw [Monitor.lawful_iff_lawfulUpTo] at h ⊢
  cases hevent with
  | verdict a k => exact h.setVerdict a k
  | answer a d c r k => exact h.answer a d c r k
  | guardedRead g => exact h.guardedRead _ _ _ _ _
  | guardedWrite g => exact h.guardedWrite _ _ _ _ _
  | tick => exact h.tick
  | leaseExpiry a c => exact h.leaseExpiry a c
  | entitlementExpiry i limit => exact h.entitlementExpiry i limit
  | holdExpiry i limit => exact h.holdExpiry i limit
  | portReset p limit => exact h.portReset p limit
  | drop => exact h.drop
  | lowerCounters a n k => exact h.lowerCounters a n k
  | removeEntry a c => exact h.removeEntry a c

theorem State.reset_monitor_lawful : State.reset.monitor.lawful := by rw [Monitor.lawful_iff]; decide +kernel

theorem State.Move.keeps_monitorLawful {c : Instr} {s t : State} (hmove : State.Move c s t) (h : s.monitor.lawful) :
    t.monitor.lawful := by
  cases hmove with
  | monitor _ hevent => exact hevent.keeps_lawful h
  | powerOn _ _ _ _ _ hc ht =>
    subst hc
    cases ht
    exact State.reset_monitor_lawful
  | issueWriteHalf => rwa [State.issueWriteHalf_monitor]
  | _ => exact h

/-- Settles O42: every event of the monitor keeps its laws. -/
theorem monitorLawKept : Obligations.MonitorLawKept := by
  unfold Obligations.MonitorLawKept
  exact fun s t => keep_of_step (P := fun s => s.monitor.lawful) (fun _ _ h => h) fun _ _ _ hmove => hmove.keeps_monitorLawful

/-- Settles O43: four agents that occupy the slots are no waiters, so 12 are left. -/
theorem waitListAtMostTwelve : Obligations.WaitListAtMostTwelve := by
  unfold Obligations.WaitListAtMostTwelve
  intro m hlawful
  rw [Monitor.lawful_iff_lawfulUpTo] at hlawful
  obtain ⟨hagents, -, hseat, -⟩ := m.slotsLawful_iff_seats.1 hlawful.slots
  by_cases hnil : m.waitList = []
  · simp [hnil]
  have hsome (i : SlotIx) : ∃ a, (m.slots.get i).agent? = some a := by
    have hi := hlawful.full hnil i id
    cases hx : m.slots.get i with
    | free => rw [hx] at hi; cases hi
    | entitled a n => exact ⟨a, rfl⟩
    | holding a c r n => exact ⟨a, rfl⟩
  obtain ⟨agent, hagent⟩ := Classical.skolem.1 hsome
  have hseats : ((List.finRange 4).map agent).Nodup :=
    List.pairwise_map.2 ((List.nodup_finRange 4).imp fun {i j} hij (heq : agent i = agent j) => hij (hagents i j _ (hagent i) (heq ▸ hagent j)))
  have hnodup : ((List.finRange 4).map agent ++ m.waitList).Nodup := by
    refine List.nodup_append.2 ⟨hseats, hlawful.waitNodup, fun a ha b hb hab => ?_⟩
    obtain ⟨i, -, rfl⟩ := List.mem_map.1 ha
    have hst := hseat i (agent i) (hagent i)
    rw [(hlawful.waiting (agent i)).2 (hab ▸ hb)] at hst
    exact (HoldSlot.seatState_ne (hagent i)).2 hst.symm
  have hcount : _ ≤ (List.finRange 16).length := hnodup.length_le_of_subset fun a _ => List.mem_finRange a
  simp only [List.length_append, List.length_map, List.length_finRange] at hcount
  omega

/-! ### The insertion of a loss entry (O44) -/

theorem insertLoss_dropLast_of_split {before after : List LossEntry} {x : LossEntry} (k : Cause)
    (h : (before ++ x :: after).Pairwise fun y z => y.cell ≠ z.cell) :
    (insertLoss (before ++ x :: after) x.cell k).dropLast = before ++ after := by
  obtain ⟨-, hafter, hcross⟩ := List.pairwise_append.1 h
  have hbefore : before.filter (·.cell != x.cell) = before :=
    List.filter_eq_self.2 fun y hy => by simpa using hcross y hy x List.mem_cons_self
  have hbehind : after.filter (·.cell != x.cell) = after :=
    List.filter_eq_self.2 fun y hy => by simpa using ((List.pairwise_cons.1 hafter).1 y hy).symm
  rw [insertLoss, if_pos (by simp), List.dropLast_concat, List.filter_append, List.filter_cons_of_neg (by simp), hbefore, hbehind]

theorem insertLoss_dropLast_of_new {l : List LossEntry} {c : Addr} (k : Cause) (hlength : l.length ≤ 4) (h : ∀ x ∈ l, x.cell ≠ c) :
    (insertLoss l c k).dropLast = if l.length = 4 then l.tail else l := by
  rw [insertLoss, if_neg (by simpa using h)]
  by_cases hfull : l.length = 4
  · rw [if_pos (by simp [Config.lossSize, hfull]), if_pos hfull, List.dropLast_concat, List.drop_one]
  · rw [if_neg (by simp only [Config.lossSize]; omega), if_neg hfull, List.dropLast_concat]

/-- Settles O44, by the three branches of the insertion. -/
theorem lossInsertion : Obligations.LossInsertion := by
  unfold Obligations.LossInsertion
  intro l c k hlength hdistinct
  refine ⟨insertLoss_getLast? l c k, insertLoss_length c k hlength, insertLoss_pairwise c k hdistinct, ?_,
    insertLoss_dropLast_of_new k hlength⟩
  rintro before x after rfl rfl
  exact insertLoss_dropLast_of_split k hdistinct

end Sys2Proof.Machine
end

section
-- One theorem at a time: side by side the proofs ask for more threads than the sandbox grants.
set_option Elab.async false

/-! PROOFS. What the classifier hands over with a request that passed its checks; the law of the live region table, and the agreement of the
reservation table with it, are kept by every step: O58. -/
namespace Sys2Proof

/-! ### Cells (R3) -/

/-- The first byte of a cell is the address with its low three bits zero. -/
theorem toNat_cellOf (a : Addr) : (cellOf a).toNat = a.toNat / 8 * 8 := by
  have hshift : cellOf a = (a >>> 3) <<< 3 := by
    apply BitVec.eq_of_getLsbD_eq
    intro i hi
    rw [cellOf, BitVec.getLsbD_and, BitVec.getLsbD_shiftLeft, BitVec.getLsbD_ushiftRight]
    have hmask : ∀ j : Fin 32, (0xFFFFFFF8#32).getLsbD j = !decide (j.val < 3) := by decide
    rw [hmask ⟨i, hi⟩]
    by_cases hlow : i < 3
    · simp [hlow]
    · simp [hlow, hi, Nat.add_sub_cancel' (Nat.le_of_not_lt hlow)]
  rw [hshift, BitVec.toNat_shiftLeft, BitVec.toNat_ushiftRight, Nat.shiftRight_eq_div_pow, Nat.shiftLeft_eq]
  have := a.isLt
  omega

namespace Machine

theorem Loader.areaOf_cellOf (l : Loader) (a : Addr) : l.areaOf (cellOf a).toNat = l.areaOf a.toNat :=
  l.areaOf_congr (by rw [toNat_cellOf]; omega)

/-! ### Requests that passed the checks (R12) -/

/-- A request with a disposition other than an answer passed every check, and its disposition is that of its area's kind. -/
theorem Loader.disp_of_passed {l : Loader} {p : PortIx} {r : Req} (h : ∀ k, (l.classify p r).disp ≠ .answer k) :
    r.misaligned = false ∧ kindCheck (l.classify p r).kind r = none
      ∧ l.fenceCheck p (l.areaOf r.firstByte) (l.classify p r).kind r = none
      ∧ (l.classify p r).disp = passedDisposition (l.classify p r).kind r.dir := by
  have haligned : r.misaligned = false := by
    cases hm : r.misaligned with
    | false => rfl
    | true => exact absurd (l.disp_of_misaligned p hm) (h _)
  have hdisp := l.classify_disp p r
  rw [l.failedCheck_of_aligned p haligned] at hdisp
  cases hkind : kindCheck (l.classify p r).kind r with
  | some k => rw [hkind] at hdisp; exact absurd hdisp (h k)
  | none =>
    rw [hkind] at hdisp
    cases hfence : l.fenceCheck p (l.areaOf r.firstByte) (l.classify p r).kind r with
    | some k => rw [hfence] at hdisp; exact absurd hdisp (h k)
    | none => rw [hfence] at hdisp; exact ⟨haligned, rfl, rfl, hdisp⟩

/-- A kind other than OPEN is that of a region. -/
theorem Loader.region_of_kind {l : Loader} {p : PortIx} {r : Req} (h : (l.classify p r).kind ≠ .openRegion) :
    ∃ i, l.areaOf r.firstByte = .region i ∧ (l.classify p r).region = .region i := by
  cases harea : l.areaOf r.firstByte with
  | window => exact absurd harea (Loader.areaOf_ne_window h)
  | region i => exact ⟨i, rfl, by simp [Loader.classify, harea, Area.index]⟩
  | defaultSpace => exact absurd (by simp [Loader.classify, harea, Loader.kindOf]) h

theorem Loader.guarded_of_guardedRead {l : Loader} {p : PortIx} {r : Req} (h : (l.classify p r).disp = .guardedRead) :
    ∃ lease limit threshold, (l.classify p r).kind = .guarded lease limit threshold := by
  obtain ⟨-, -, -, hdisp⟩ := Loader.disp_of_passed (l := l) (p := p) (r := r) (by simp [h])
  rw [h] at hdisp
  cases hkind : (l.classify p r).kind with
  | guarded lease limit threshold => exact ⟨lease, limit, threshold, rfl⟩
  | openRegion | fenced w => rw [hkind] at hdisp; cases hdisp
  | tally mode => cases hdir : r.dir <;> rw [hkind, hdir] at hdisp <;> cases hdisp

/-- The cell of a guarded read lies in the region whose index the classifier reports (R7, R20). -/
theorem Loader.areaOf_cell_of_guardedRead {l : Loader} {p : PortIx} {r : Req} (h : (l.classify p r).disp = .guardedRead) :
    l.areaOf (l.classify p r).cell.toNat = .region (l.classify p r).region.index := by
  obtain ⟨lease, limit, threshold, hkind⟩ := Loader.guarded_of_guardedRead h
  obtain ⟨i, harea, hregion⟩ := Loader.region_of_kind (l := l) (p := p) (r := r) (by simp [hkind])
  rw [hregion]
  exact (l.areaOf_cellOf r.addr).trans harea

/-! ### The live region table (R134) -/

theorem Loader.lawful_of_validBlock {l : Loader} {bytes : List Byte} {b : Block} (h : validBlock l.policyGranule bytes = some b) :
    b.regions.length ≤ 16 ∧ noOverlaps b.regions = true ∧ b.regions.all (fun r => !r.covers l.policyGranule) = true := by
  obtain ⟨⟨haccepted, -⟩, rs, hregions, ⟨hdisjoint, hclear⟩, rfl⟩ := (validBlock_eq_some_iff _ _ _).1 h
  obtain ⟨hlength, -⟩ := descriptorRegions_holdsFields hregions
  have hcount : blockCount bytes ≤ 16 := ((headerAccepted_iff bytes).1 haccepted).2
  exact ⟨hlength ▸ hcount, hdisjoint, hclear⟩

theorem State.LoaderEvent.keeps_lawful {s : State} {l : Loader} (hevent : s.LoaderEvent l) (h : s.loader.lawful) : l.lawful := by
  cases hevent with
  | install b bytes _ hvalid => exact Loader.lawful_of_validBlock hvalid
  | drain | fetch | read | reject => exact h

theorem State.Move.keeps_loaderLawful {c : Instr} {s t : State} (hmove : State.Move c s t) (h : s.loader.lawful) :
    t.loader.lawful := by
  cases hmove with
  | loader _ hevent => exact hevent.keeps_lawful h
  | powerOn _ _ _ _ _ hc ht =>
    subst hc
    cases ht
    exact ⟨Nat.zero_le _, rfl, rfl⟩
  | issueWriteHalf => rwa [State.issueWriteHalf_loader]
  | _ => exact h

/-! ### The table's entries under the monitor's operations (R20) -/

/-- Every table entry of `n` is one of `m`, but for its lease. -/
def Monitor.TableWithin (n m : Monitor) : Prop :=
  ∀ e ∈ n.table, ∃ f ∈ m.table, f.agent = e.agent ∧ f.cell = e.cell ∧ f.region = e.region

theorem Monitor.TableWithin.of_subset {n m : Monitor} (h : n.table ⊆ m.table) : n.TableWithin m :=
  fun e he => ⟨e, h he, rfl, rfl, rfl⟩

theorem Monitor.TableWithin.of_eq {n m : Monitor} (h : n.table = m.table) : n.TableWithin m :=
  Monitor.TableWithin.of_subset (h ▸ List.Subset.refl _)

theorem Monitor.TableWithin.nil {n m : Monitor} (h : n.TableWithin m) (hm : m.table = []) : n.table = [] := by
  rw [List.eq_nil_iff_forall_not_mem]
  intro e he
  obtain ⟨f, hf, -⟩ := h e he
  rw [hm] at hf
  cases hf

theorem Monitor.removeEntry_subset (m : Monitor) (a : Agent) (c : Addr) : (m.removeEntry a c).table ⊆ m.table :=
  List.filter_sublist.subset

theorem Monitor.answer_table (m : Monitor) (a : Agent) (d : Dir) (c : Addr) (r : RegionIx) (k : Cause) :
    (m.answer a d c r k).monitor.table = m.table := by
  unfold Monitor.answer
  cases d <;> dsimp only <;> split <;> rfl

theorem Monitor.promote_table (m : Monitor) (i : SlotIx) (limit : Nat) : (m.promote i limit).monitor.table = m.table := by
  rcases m.promote_cases i limit with ⟨-, heq⟩ | ⟨w, rest, -, heq⟩ <;> exact congrArg (fun x : MonitorStep => x.monitor.table) heq

theorem Monitor.releaseSlot_table (m : Monitor) (i : SlotIx) (a : Agent) (place : Option (Addr × RegionIx)) (k : Cause) (limit : Nat) :
    (m.releaseSlot i a place k limit).monitor.table = m.table :=
  Monitor.promote_table _ i limit

theorem Monitor.escalationCheck_table (m : Monitor) (a : Agent) (threshold limit : Nat) :
    (m.escalationCheck a threshold limit).monitor.table = m.table := by
  rcases m.escalationCheck_cases a threshold limit with ⟨-, heq⟩ | ⟨-, ⟨i, -, heq⟩ | ⟨-, heq⟩⟩ <;>
    exact congrArg (fun x : MonitorStep => x.monitor.table) heq

theorem Monitor.refuse_table (m : Monitor) (a : Agent) (c : Addr) (region : RegionIx) (k : Cause) (threshold limit : Nat) :
    (m.refuse a c region k threshold limit).monitor.table = m.table := by
  unfold Monitor.refuse
  split
  · exact Monitor.escalationCheck_table _ a threshold limit
  · rfl

theorem Monitor.breakOthers_subset (m : Monitor) (a : Agent) (c : Addr) : (m.breakOthers a c).monitor.table ⊆ m.table := by
  rw [Monitor.breakOthers, Monitor.foldl_breakEntry_table]
  exact List.filter_sublist.subset

theorem Monitor.guardedWrite_subset (m : Monitor) (a : Agent) (c : Addr) (region : RegionIx) (threshold limit : Nat) :
    (m.guardedWrite a c region threshold limit).step.monitor.table ⊆ m.table := by
  have hrefuse (n : Monitor) (k : Cause) (hn : n.table = m.table) :
      (n.refuse a c region k threshold limit).monitor.table ⊆ m.table := by
    rw [Monitor.refuse_table, hn]
    exact List.Subset.refl _
  rcases m.guardedWrite_cases a c region threshold limit with ⟨-, heq⟩ | ⟨i, -, heq⟩ | ⟨-, heq⟩ | ⟨k, -, heq⟩ | ⟨-, heq⟩ <;> rw [heq]
  · exact hrefuse m .held rfl
  · dsimp only [Monitor.commitByHold]
    rw [Monitor.releaseSlot_table]
    exact Monitor.breakOthers_subset (m.updCtx a AgentCtx.countCommit) a c
  · exact List.Subset.trans (Monitor.breakOthers_subset _ a c) (m.removeEntry_subset a c)
  · exact hrefuse (m.forget a c) k rfl
  · exact hrefuse m .noReservation rfl

theorem Monitor.leaseExpiry_subset (m : Monitor) (a : Agent) (c : Addr) : (m.leaseExpiry a c).monitor.table ⊆ m.table := by
  rcases m.leaseExpiry_cases a c with ⟨e, -, -, heq⟩ | ⟨-, heq⟩ <;> rw [heq]
  · exact m.removeEntry_subset a c
  · exact List.Subset.refl _

theorem Monitor.entitlementExpiry_table (m : Monitor) (i : SlotIx) (limit : Nat) :
    (m.entitlementExpiry i limit).monitor.table = m.table := by
  rcases m.entitlementExpiry_cases i limit with ⟨a, -, heq⟩ | ⟨-, heq⟩ <;> rw [heq]
  exact Monitor.releaseSlot_table _ _ _ _ _ _

theorem Monitor.holdExpiry_table (m : Monitor) (i : SlotIx) (limit : Nat) : (m.holdExpiry i limit).monitor.table = m.table := by
  rcases m.holdExpiry_cases i limit with ⟨a, c, r, -, heq⟩ | ⟨-, heq⟩ <;> rw [heq]
  exact Monitor.releaseSlot_table _ _ _ _ _ _

theorem Monitor.foldl_freeForReset_table (p : PortIx) (limit : Nat) (is : List SlotIx) (st : MonitorStep) :
    (is.foldl (Monitor.freeForReset p limit) st).monitor.table = st.monitor.table := by
  induction is generalizing st with
  | nil => rfl
  | cons i is ih =>
    rw [List.foldl_cons, ih]
    rcases Monitor.freeForReset_monitor p limit st i with ⟨-, heq⟩ | ⟨-, heq⟩ <;> rw [heq]
    rw [Monitor.promote_table, (st.monitor.clearSlot_frame p i).1]

theorem Monitor.portReset_table (m : Monitor) (p : PortIx) (limit : Nat) :
    (m.portReset p limit).monitor.table = m.table.filter fun e => portOf e.agent != p := by
  rw [Monitor.portReset_eq, Monitor.foldl_freeForReset_table]
  rfl

theorem Monitor.makeRoom_subset (m : Monitor) (a : Agent) : (m.makeRoom a).monitor.table ⊆ m.table := by
  rcases m.makeRoom_cases a with ⟨e, -, -, heq⟩ | ⟨e, rest, -, -, htable, heq⟩ | ⟨-, -, heq⟩ <;> rw [heq]
  · exact m.removeEntry_subset _ _
  · rw [htable]; exact List.subset_cons_self e rest
  · exact List.Subset.refl _

/-- The entries after a guarded read (R23): those before it, and the reader's on the cell with the region of the read. -/
theorem Monitor.mem_guardedRead (m : Monitor) (a : Agent) (c : Addr) (region lease holdLimit : Nat) :
    ∀ e ∈ (m.guardedRead a c region lease holdLimit).monitor.table,
      (∃ f ∈ m.table, f.agent = e.agent ∧ f.cell = e.cell ∧ f.region = e.region)
        ∨ e.agent = a ∧ e.cell = c ∧ e.region = region := by
  intro e he
  rcases m.guardedRead_cases a c region lease holdLimit with
    ⟨i, -, -, heq⟩ | ⟨-, ⟨i, -, heq⟩ | ⟨f, -, hf, heq⟩ | ⟨-, -, heq⟩⟩ <;> rw [heq] at he
  · exact .inl ⟨e, m.removeEntry_subset a c he, rfl, rfl, rfl⟩
  · exact .inl ⟨e, he, rfl, rfl, rfl⟩
  · rcases List.mem_append.1 he with he | he
    · exact .inl ⟨e, m.removeEntry_subset _ _ he, rfl, rfl, rfl⟩
    · rw [List.mem_singleton.1 he]
      exact .inl ⟨f, (Monitor.entry_some hf).1, rfl, rfl, rfl⟩
  · rcases List.mem_append.1 he with he | he
    · exact .inl ⟨e, (m.forget a c).makeRoom_subset a he, rfl, rfl, rfl⟩
    · rw [List.mem_singleton.1 he]
      exact .inr ⟨rfl, rfl, rfl⟩

/-! ### The agreement (R20, R21) -/

theorem State.regionsAgree_of_within {s : State} (h : s.regionsAgree) {m : Monitor} (hm : m.TableWithin s.monitor) :
    ({ s with monitor := m } : State).regionsAgree := by
  refine ⟨fun e he => ?_, fun hpart => hm.nil (h.2 hpart)⟩
  obtain ⟨f, hf, -, hcell, hregion⟩ := hm e he
  rw [← hcell, ← hregion]
  exact h.1 f hf

theorem State.MonitorEvent.keeps_regionsAgree {s : State} {m : Monitor} (hevent : s.MonitorEvent m) (h : s.regionsAgree) :
    ({ s with monitor := m } : State).regionsAgree := by
  cases hevent with
  | guardedRead g hoffers hdisp =>
    refine ⟨fun e he => ?_, fun hloading => ?_⟩
    · rcases s.monitor.mem_guardedRead _ _ _ _ _ e he with ⟨f, hf, -, hcell, hregion⟩ | ⟨-, hcell, hregion⟩
      · rw [← hcell, ← hregion]
        exact h.1 f hf
      · rw [hcell, hregion]
        have hclass := hoffers.classified
        rw [hclass] at hdisp ⊢
        exact Loader.areaOf_cell_of_guardedRead hdisp
    · have hrunning := hoffers.running
      rw [show s.loader.part = .loading from hloading] at hrunning
      cases hrunning
  | verdict | lowerCounters => exact State.regionsAgree_of_within h (.of_eq rfl)
  | answer a d c r k => exact State.regionsAgree_of_within h (.of_eq (s.monitor.answer_table a d c r k))
  | guardedWrite g => exact State.regionsAgree_of_within h (.of_subset (s.monitor.guardedWrite_subset _ _ _ _ _))
  | tick =>
    refine State.regionsAgree_of_within h fun e he => ?_
    obtain ⟨f, hf, rfl⟩ := List.mem_map.1 he
    exact ⟨f, hf, rfl, rfl, rfl⟩
  | leaseExpiry a c => exact State.regionsAgree_of_within h (.of_subset (s.monitor.leaseExpiry_subset a c))
  | entitlementExpiry i limit => exact State.regionsAgree_of_within h (.of_eq (s.monitor.entitlementExpiry_table i limit))
  | holdExpiry i limit => exact State.regionsAgree_of_within h (.of_eq (s.monitor.holdExpiry_table i limit))
  | portReset p limit =>
    refine State.regionsAgree_of_within h (.of_subset ?_)
    rw [Monitor.portReset_table]
    exact List.filter_sublist.subset
  | drop => exact State.regionsAgree_of_within h (.of_subset (by simp))
  | removeEntry a c => exact State.regionsAgree_of_within h (.of_subset (s.monitor.removeEntry_subset a c))

theorem State.LoaderEvent.keeps_regionsAgree {s : State} {l : Loader} (hevent : s.LoaderEvent l) (h : s.regionsAgree) :
    ({ s with loader := l } : State).regionsAgree := by
  cases hevent with
  | install b bytes _ _ hempty =>
    have hnil : s.monitor.table = [] := hempty.elim h.2 id
    simp [State.regionsAgree, hnil]
  | read => exact h
  | drain | fetch | reject => exact ⟨h.1, fun hloading => nomatch hloading⟩

theorem State.Move.keeps_regionsAgree {c : Instr} {s t : State} (hmove : State.Move c s t) (h : s.regionsAgree) : t.regionsAgree := by
  cases hmove with
  | monitor _ hevent => exact hevent.keeps_regionsAgree h
  | loader _ hevent => exact hevent.keeps_regionsAgree h
  | powerOn _ _ _ _ _ hc ht =>
    subst hc
    cases ht
    simp [State.regionsAgree, State.reset]
  | issueWriteHalf => rwa [State.regionsAgree, State.issueWriteHalf_monitor, State.issueWriteHalf_loader]
  | _ => exact h

/-- Settles O58: every move keeps both laws. -/
theorem policyLawsKept : Obligations.PolicyLawsKept := by
  unfold Obligations.PolicyLawsKept
  exact ⟨fun s t => keep_of_step (P := fun s => s.loader.lawful) (fun _ _ h => h) fun _ _ _ hmove => hmove.keeps_loaderLawful,
    fun s t => keep_of_step (P := State.regionsAgree) (fun _ _ h => h) fun _ _ _ hmove => hmove.keeps_regionsAgree⟩

end Machine
end Sys2Proof
end

section
-- One theorem at a time: side by side the proofs ask for more threads than the sandbox grants.
set_option Elab.async false

/-! PROOFS. The laws of the memory port and of the tally engine (R86, R91, R117, R118, R124) are kept by every step: O59. -/
namespace Sys2Proof.Machine

/-! ### The outstanding list (R117, R118) -/

@[simp] theorem MemoryPort.issue_outstanding (m : MemoryPort) (timeout : Nat) (d : Dir) (addr : Addr) (len : Length)
    (data : List Byte) (origin : Origin) :
    (m.issue timeout d addr len data origin).outstanding =
      m.outstanding ++ [{ tx := { tag := m.nextTag, dir := d, addr := addr, len := len, data := data }, origin := origin }] := rfl

@[simp] theorem MemoryPort.issue_issued (m : MemoryPort) (timeout : Nat) (d : Dir) (addr : Addr) (len : Length)
    (data : List Byte) (origin : Origin) :
    (m.issue timeout d addr len data origin).issued =
      m.issued ++ [{ tag := m.nextTag, dir := d, addr := addr, len := len, data := data }] := rfl

@[simp] theorem MemoryPort.issue_nextTag (m : MemoryPort) (timeout : Nat) (d : Dir) (addr : Addr) (len : Length)
    (data : List Byte) (origin : Origin) : (m.issue timeout d addr len data origin).nextTag = m.nextTag + 1 := rfl

theorem MemoryPort.tagsLawful.issue {m : MemoryPort} (h : m.tagsLawful) (timeout : Nat) (d : Dir) (addr : Addr) (len : Length)
    (data : List Byte) (origin : Origin) : (m.issue timeout d addr len data origin).tagsLawful := by
  intro k e he
  rw [MemoryPort.issue_outstanding] at he ⊢
  rw [MemoryPort.issue_nextTag, List.length_append, List.length_singleton]
  rcases Nat.lt_trichotomy k m.outstanding.length with hk | rfl | hk
  · rw [List.getElem?_append_left hk] at he
    have hcount : m.outstanding.length + 1 - k = m.outstanding.length - k + 1 := by omega
    rw [hcount, BitVec.ofNat_add, ← BitVec.add_assoc, h k e he]
    rfl
  · rw [List.getElem?_concat_length] at he
    cases he
    rw [Nat.add_sub_cancel_left]
    rfl
  · rw [List.getElem?_eq_none (by simp; omega)] at he
    cases he

theorem MemoryPort.tagsLawful.retire {m : MemoryPort} (h : m.tagsLawful) (timeout : Nat) : (m.retire timeout).tagsLawful := by
  intro k e he
  have hold : m.outstanding[1 + k]? = some e := by
    rw [← List.getElem?_drop]
    exact he
  have hcount : (m.retire timeout).outstanding.length - k = m.outstanding.length - (1 + k) := by
    simp only [MemoryPort.retire, List.length_drop]
    omega
  rw [hcount]
  exact h (1 + k) e hold

/-- In a list of at most 16 entries no two carry the same tag (R118). -/
theorem MemoryPort.tagsLawful.index_eq {m : MemoryPort} (h : m.tagsLawful) (hlength : m.outstanding.length ≤ 16) {j k : Nat}
    {e f : OutEntry} (he : m.outstanding[j]? = some e) (hf : m.outstanding[k]? = some f) (htag : e.tx.tag = f.tx.tag) : j = k := by
  obtain ⟨hj, -⟩ := List.getElem?_eq_some_iff.1 he
  obtain ⟨hk, -⟩ := List.getElem?_eq_some_iff.1 hf
  have hsum := (h j e he).trans (h k f hf).symm
  rw [htag, BitVec.add_right_inj] at hsum
  have hnat := congrArg BitVec.toNat hsum
  rw [BitVec.toNat_ofNat, BitVec.toNat_ofNat, Nat.mod_eq_of_lt (by omega), Nat.mod_eq_of_lt (by omega)] at hnat
  omega

/-- The oldest entry's tag is no other entry's. -/
theorem MemoryPort.tagsLawful.tag_ne_of_mem {m : MemoryPort} (h : m.tagsLawful) (hlength : m.outstanding.length ≤ 16) {e f : OutEntry}
    {rest : List OutEntry} (he : m.outstanding = e :: rest) (hf : f ∈ rest) : f.tx.tag ≠ e.tx.tag := by
  obtain ⟨k, hk⟩ := List.mem_iff_getElem?.1 hf
  intro htag
  have hindex := h.index_eq hlength (j := k + 1) (k := 0) (e := f) (f := e) (by rw [he]; exact hk) (by rw [he]; rfl) htag
  omega

theorem MemoryPort.timerLawful.issue (m : MemoryPort) (timeout : Nat) (d : Dir) (addr : Addr) (len : Length)
    (data : List Byte) (origin : Origin) : (m.issue timeout d addr len data origin).timerLawful := by
  intro hnil
  simp at hnil

theorem MemoryPort.timerLawful.retire (m : MemoryPort) (timeout : Nat) : (m.retire timeout).timerLawful := by
  intro hnil
  have hdrop : m.outstanding.drop 1 = [] := hnil
  simp [MemoryPort.retire, hdrop]

/-! ### The law with both blocks named -/

/-- The places, tags, slots and halves of a tally engine and a memory port (R85, R86, R91, R117, R118). -/
structure TrafficLawful (e : TallyEngine) (m : MemoryPort) : Prop where
  places : m.outstanding.length + e.waiting.length ≤ 16
  tags : m.tagsLawful
  cells : ∀ i j t u, e.slots.get i = some t → e.slots.get j = some u → t.cell = u.cell → i = j
  waitNodup : e.waiting.Nodup
  waiting : ∀ i, i ∈ e.waiting ↔ ∃ t, e.slots.get i = some t ∧ t.tag = none
  phases : e.phasesLawful
  reads : ∀ x ∈ m.outstanding, ∀ o i, x.origin = .tallyRead o i →
    ∃ t, e.slots.get i = some t ∧ t.tag = some x.tx.tag ∧ t.phase = .reading
  writes : ∀ x ∈ m.outstanding, ∀ o i, x.origin = .tallyWrite o i →
    ∃ t v clamped, e.slots.get i = some t ∧ t.tag = some x.tx.tag ∧ t.phase = .writing v clamped

theorem State.trafficLawful_iff (s : State) : s.tallyTrafficLawful ↔ TrafficLawful s.tally s.memory := by
  constructor
  · rintro ⟨hplaces, htags, ⟨hcells, hnodup, hwaiting⟩, hphases, hhalves⟩
    exact ⟨hplaces, htags, hcells, hnodup, hwaiting, hphases, fun x hx => (hhalves x hx).1, fun x hx => (hhalves x hx).2⟩
  · rintro ⟨hplaces, htags, hcells, hnodup, hwaiting, hphases, hreads, hwrites⟩
    exact ⟨hplaces, htags, ⟨hcells, hnodup, hwaiting⟩, hphases, fun x hx => ⟨hreads x hx, hwrites x hx⟩⟩

theorem TrafficLawful.of_empty {e : TallyEngine} {m : MemoryPort} (hslots : ∀ i, e.slots.get i = none) (hwaiting : e.waiting = [])
    (houtstanding : m.outstanding = []) : TrafficLawful e m where
  places := by simp [hwaiting, houtstanding]
  tags := fun k x hx => by simp [houtstanding] at hx
  cells := fun i j t u ht => by simp [hslots] at ht
  waitNodup := by simp [hwaiting]
  waiting := fun i => by simp [hwaiting, hslots]
  phases := fun i t ht => by simp [hslots] at ht
  reads := fun x hx => by simp [houtstanding] at hx
  writes := fun x hx => by simp [houtstanding] at hx

section
variable {e : TallyEngine} {m : MemoryPort}

/-- The slot of an outstanding half carries its tag. -/
theorem TrafficLawful.tag_of_half (h : TrafficLawful e m) {x : OutEntry} (hx : x ∈ m.outstanding) {o : Owner} {i : SlotIx}
    (horigin : x.origin = .tallyRead o i ∨ x.origin = .tallyWrite o i) :
    ∃ t, e.slots.get i = some t ∧ t.tag = some x.tx.tag := by
  rcases horigin with horigin | horigin
  · obtain ⟨t, ht, htag, -⟩ := h.reads x hx o i horigin
    exact ⟨t, ht, htag⟩
  · obtain ⟨t, v, clamped, ht, htag, -⟩ := h.writes x hx o i horigin
    exact ⟨t, ht, htag⟩

/-- A transaction that is no half is issued into a free place. -/
theorem TrafficLawful.issue (h : TrafficLawful e m) (hplace : m.outstanding.length + e.waiting.length < 16) (timeout : Nat) (d : Dir)
    (addr : Addr) (len : Length) (data : List Byte) {origin : Origin}
    (horigin : ∀ o i, origin ≠ .tallyRead o i ∧ origin ≠ .tallyWrite o i) :
    TrafficLawful e (m.issue timeout d addr len data origin) := by
  refine { h with
    places := by simp; omega
    tags := h.tags.issue timeout d addr len data origin
    reads := fun x hx o i hxo => ?_
    writes := fun x hx o i hxo => ?_ }
  · rcases List.mem_append.1 hx with hx | hx
    · exact h.reads x hx o i hxo
    · rw [List.mem_singleton.1 hx] at hxo
      exact absurd hxo (horigin o i).1
  · rcases List.mem_append.1 hx with hx | hx
    · exact h.writes x hx o i hxo
    · rw [List.mem_singleton.1 hx] at hxo
      exact absurd hxo (horigin o i).2

/-- The oldest transaction, which is no half in a slot, is retired. -/
theorem TrafficLawful.retire (h : TrafficLawful e m) (timeout : Nat) : TrafficLawful e (m.retire timeout) := by
  have hsub : (m.retire timeout).outstanding ⊆ m.outstanding := (List.drop_sublist 1 m.outstanding).subset
  refine { h with
    places := ?_
    tags := h.tags.retire timeout
    reads := fun x hx => h.reads x (hsub hx)
    writes := fun x hx => h.writes x (hsub hx) }
  have hplaces := h.places
  simp only [MemoryPort.retire, List.length_drop]
  omega

/-- A change of a slot that no outstanding half names. -/
theorem TrafficLawful.halves_set {m' : MemoryPort} (h : TrafficLawful e m) (hsub : m'.outstanding ⊆ m.outstanding) {i : SlotIx}
    (hnone : ∀ x ∈ m'.outstanding, ∀ o, x.origin ≠ .tallyRead o i ∧ x.origin ≠ .tallyWrite o i) (t : Option Tally) :
    (∀ x ∈ m'.outstanding, ∀ o j, x.origin = .tallyRead o j →
        ∃ u, (e.slots.set i t).get j = some u ∧ u.tag = some x.tx.tag ∧ u.phase = .reading)
      ∧ ∀ x ∈ m'.outstanding, ∀ o j, x.origin = .tallyWrite o j →
        ∃ u v clamped, (e.slots.set i t).get j = some u ∧ u.tag = some x.tx.tag ∧ u.phase = .writing v clamped := by
  refine ⟨fun x hx o j hxo => ?_, fun x hx o j hxo => ?_⟩
  · have hji : j ≠ i := fun hji => (hnone x hx o).1 (hji ▸ hxo)
    rw [Four.get_set_ne _ _ hji]
    exact h.reads x (hsub hx) o j hxo
  · have hji : j ≠ i := fun hji => (hnone x hx o).2 (hji ▸ hxo)
    rw [Four.get_set_ne _ _ hji]
    exact h.writes x (hsub hx) o j hxo

/-- The cells of the tallies in flight stay different when a slot keeps its cell, is freed, or takes a cell that is not busy. -/
theorem TrafficLawful.cells_set (h : TrafficLawful e m) {i : SlotIx} {t : Option Tally}
    (ht : ∀ u, t = some u → (∃ v, e.slots.get i = some v ∧ v.cell = u.cell) ∨ e.busy u.cell = false) :
    ∀ j k v w, (e.slots.set i t).get j = some v → (e.slots.set i t).get k = some w → v.cell = w.cell → j = k := by
  have hcross (j : SlotIx) (u v : Tally) (hu : t = some u) (hv : e.slots.get j = some v) (hcell : v.cell = u.cell) : j = i := by
    rcases ht u hu with ⟨w, hw, hcellw⟩ | hbusy
    · exact h.cells j i v w hv hw (hcell.trans hcellw.symm)
    · exact absurd hcell ((e.busy_eq_false_iff u.cell).1 hbusy j v hv)
  intro j k v w hv hw hcell
  rw [Four.get_set] at hv hw
  split at hv <;> split at hw
  next hj hk => rw [hj, hk]
  next hj hk => rw [hj]; exact (hcross k v w hv hw hcell.symm).symm
  next hj hk => rw [hk]; exact hcross j w v hw hv hcell
  next => exact h.cells j k v w hv hw hcell

/-- A tally write takes a FREE slot, and its read half is issued, while no write half waits (R87, R88). -/
theorem TrafficLawful.takeTally (h : TrafficLawful e m) (hplace : m.outstanding.length + e.waiting.length < 16)
    (hnone : e.waiting = []) {i : SlotIx} (hfree : e.slots.get i = none) {t : Tally} (hbusy : e.busy t.cell = false)
    (htag : t.tag = some m.nextTag) (hphase : t.phase = .reading) (timeout : Nat) (d : Dir) (addr : Addr) (len : Length)
    (data : List Byte) (o : Owner) :
    TrafficLawful (e.setSlot i (some t)) (m.issue timeout d addr len data (.tallyRead o i)) := by
  have hunnamed : ∀ x ∈ m.outstanding, ∀ o, x.origin ≠ .tallyRead o i ∧ x.origin ≠ .tallyWrite o i := by
    intro x hx o
    constructor <;> intro hxo
    · obtain ⟨u, hu, -⟩ := h.tag_of_half hx (.inl hxo)
      rw [hfree] at hu; cases hu
    · obtain ⟨u, hu, -⟩ := h.tag_of_half hx (.inr hxo)
      rw [hfree] at hu; cases hu
  obtain ⟨hreads, hwrites⟩ := h.halves_set (m' := m) (List.Subset.refl _) hunnamed (some t)
  constructor
  case places => simp [TallyEngine.setSlot]; omega
  case tags => exact h.tags.issue _ _ _ _ _ _
  case cells => exact h.cells_set fun u hu => by cases hu; exact .inr hbusy
  case waitNodup => exact h.waitNodup
  case waiting =>
    intro j
    rw [TallyEngine.setSlot, Four.get_set]
    split
    next hji =>
      rw [hnone]
      refine iff_of_false List.not_mem_nil fun ⟨u, hu, hutag⟩ => ?_
      cases hu
      rw [htag] at hutag
      cases hutag
    next => exact h.waiting j
  case phases =>
    intro j u hu hutag
    rw [TallyEngine.setSlot, Four.get_set] at hu
    split at hu
    · cases hu
      rw [htag] at hutag
      cases hutag
    · exact h.phases j u hu hutag
  case reads =>
    intro x hx o' j hxo
    rcases List.mem_append.1 hx with hx | hx
    · exact hreads x hx o' j hxo
    · rw [List.mem_singleton.1 hx] at hxo ⊢
      cases hxo
      exact ⟨t, Four.get_set_self _ _ _, htag, hphase⟩
  case writes =>
    intro x hx o' j hxo
    rcases List.mem_append.1 hx with hx | hx
    · exact hwrites x hx o' j hxo
    · rw [List.mem_singleton.1 hx] at hxo
      cases hxo

/-- The write half that has waited longest is issued (R91, R119). -/
theorem TrafficLawful.issueWriteHalf (h : TrafficLawful e m) {i : SlotIx} {rest : List SlotIx} (hwait : e.waiting = i :: rest)
    {t : Tally} (ht : e.slots.get i = some t) (timeout : Nat) (d : Dir) (addr : Addr) (len : Length) (data : List Byte) (o : Owner) :
    TrafficLawful { slots := e.slots.set i (some { t with tag := some m.nextTag }), waiting := rest }
      (m.issue timeout d addr len data (.tallyWrite o i)) := by
  obtain ⟨hi, hrest⟩ := List.nodup_cons.1 (hwait ▸ h.waitNodup)
  have htag : t.tag = none := by
    obtain ⟨u, hu, hutag⟩ := (h.waiting i).1 (by simp [hwait])
    rw [ht] at hu
    cases hu
    exact hutag
  obtain ⟨v, clamped, hphase⟩ := h.phases i t ht htag
  have hunnamed : ∀ x ∈ m.outstanding, ∀ o, x.origin ≠ .tallyRead o i ∧ x.origin ≠ .tallyWrite o i := by
    have hne (x : OutEntry) (hx : x ∈ m.outstanding) (o : Owner) (hxo : x.origin = .tallyRead o i ∨ x.origin = .tallyWrite o i) :
        False := by
      obtain ⟨u, hu, hutag⟩ := h.tag_of_half hx hxo
      rw [ht] at hu
      cases hu
      rw [htag] at hutag
      cases hutag
    exact fun x hx o => ⟨fun hxo => hne x hx o (.inl hxo), fun hxo => hne x hx o (.inr hxo)⟩
  obtain ⟨hreads, hwrites⟩ := h.halves_set (m' := m) (List.Subset.refl _) hunnamed (some { t with tag := some m.nextTag })
  have hplaces := h.places
  rw [hwait, List.length_cons] at hplaces
  constructor
  case places => simp; omega
  case tags => exact h.tags.issue _ _ _ _ _ _
  case cells => exact h.cells_set fun u hu => by cases hu; exact .inl ⟨t, ht, rfl⟩
  case waitNodup => exact hrest
  case waiting =>
    intro j
    rw [Four.get_set]
    split
    next hji =>
      rw [hji]
      exact iff_of_false hi fun ⟨u, hu, hutag⟩ => by cases hu; cases hutag
    next hji =>
      rw [← h.waiting j, hwait, List.mem_cons]
      exact (or_iff_right hji).symm
  case phases =>
    intro j u hu hutag
    rw [Four.get_set] at hu
    split at hu
    · cases hu
      cases hutag
    · exact h.phases j u hu hutag
  case reads =>
    intro x hx o' j hxo
    rcases List.mem_append.1 hx with hx | hx
    · exact hreads x hx o' j hxo
    · rw [List.mem_singleton.1 hx] at hxo
      cases hxo
  case writes =>
    intro x hx o' j hxo
    rcases List.mem_append.1 hx with hx | hx
    · exact hwrites x hx o' j hxo
    · rw [List.mem_singleton.1 hx] at hxo ⊢
      cases hxo
      exact ⟨_, v, clamped, Four.get_set_self _ _ _, rfl, hphase⟩

/-- The half at the front is the only outstanding one of its slot, and its slot's write half does not wait. -/
theorem TrafficLawful.front_half (h : TrafficLawful e m) {x : OutEntry} {rest : List OutEntry} (hx : m.outstanding = x :: rest)
    {o : Owner} {i : SlotIx} (horigin : x.origin = .tallyRead o i ∨ x.origin = .tallyWrite o i) :
    (∀ y ∈ rest, ∀ o, y.origin ≠ .tallyRead o i ∧ y.origin ≠ .tallyWrite o i) ∧ i ∉ e.waiting := by
  have hplaces := h.places
  obtain ⟨t, ht, htag⟩ := h.tag_of_half (by simp [hx]) horigin
  have hne (y : OutEntry) (hy : y ∈ rest) (o : Owner) (hyo : y.origin = .tallyRead o i ∨ y.origin = .tallyWrite o i) : False := by
    obtain ⟨u, hu, hutag⟩ := h.tag_of_half (x := y) (by simp [hx, hy]) hyo
    rw [ht] at hu
    cases hu
    rw [htag] at hutag
    exact h.tags.tag_ne_of_mem (by omega) hx hy (Option.some.inj hutag).symm
  refine ⟨fun y hy o => ⟨fun hyo => hne y hy o (.inl hyo), fun hyo => hne y hy o (.inr hyo)⟩, fun hwait => ?_⟩
  obtain ⟨u, hu, hutag⟩ := (h.waiting i).1 hwait
  rw [ht] at hu
  cases hu
  rw [htag] at hutag
  cases hutag

/-- A read half is retired OKAY: its write half waits, in the place the read half leaves (R91, R117). -/
theorem TrafficLawful.retireReadHalf (h : TrafficLawful e m) {x : OutEntry} {rest : List OutEntry} (hx : m.outstanding = x :: rest)
    {o : Owner} {i : SlotIx} (horigin : x.origin = .tallyRead o i) {t : Tally} (ht : e.slots.get i = some t) (v : BitVec 64)
    (clamped : Bool) (timeout : Nat) :
    TrafficLawful
      { slots := e.slots.set i (some { t with phase := .writing v clamped, tag := none }), waiting := e.waiting ++ [i] }
      (m.retire timeout) := by
  obtain ⟨hunnamed, hi⟩ := h.front_half hx (.inl horigin)
  have hdrop : (m.retire timeout).outstanding = rest := by simp [MemoryPort.retire, hx]
  obtain ⟨hreads, hwrites⟩ := h.halves_set (m' := m.retire timeout) (by rw [hdrop, hx]; exact List.subset_cons_self x rest)
    (by rw [hdrop]; exact hunnamed) (some { t with phase := .writing v clamped, tag := none })
  have hplaces := h.places
  rw [hx, List.length_cons] at hplaces
  constructor
  case places => rw [hdrop, List.length_append, List.length_singleton]; omega
  case tags => exact h.tags.retire timeout
  case cells => exact h.cells_set fun u hu => by cases hu; exact .inl ⟨t, ht, rfl⟩
  case waitNodup =>
    exact List.nodup_append.2 ⟨h.waitNodup, List.pairwise_singleton _ _, fun j hj k hk hjk => hi (List.mem_singleton.1 hk ▸ hjk ▸ hj)⟩
  case waiting =>
    intro j
    rw [Four.get_set, List.mem_append, List.mem_singleton]
    split
    next hji => exact iff_of_true (.inr hji) ⟨_, rfl, rfl⟩
    next hji => rw [← h.waiting j]; exact or_iff_left hji
  case phases =>
    intro j u hu hutag
    rw [Four.get_set] at hu
    split at hu
    · cases hu
      exact ⟨v, clamped, rfl⟩
    · exact h.phases j u hu hutag
  case reads => exact hreads
  case writes => exact hwrites

/-- A half at the front is retired and its tally's slot becomes FREE (R92 to R94). -/
theorem TrafficLawful.endTally (h : TrafficLawful e m) {x : OutEntry} {rest : List OutEntry} (hx : m.outstanding = x :: rest)
    {o : Owner} {i : SlotIx} (horigin : x.origin = .tallyRead o i ∨ x.origin = .tallyWrite o i) (timeout : Nat) :
    TrafficLawful (e.setSlot i none) (m.retire timeout) := by
  obtain ⟨hunnamed, hi⟩ := h.front_half hx horigin
  have hdrop : (m.retire timeout).outstanding = rest := by simp [MemoryPort.retire, hx]
  obtain ⟨hreads, hwrites⟩ := h.halves_set (m' := m.retire timeout) (by rw [hdrop, hx]; exact List.subset_cons_self x rest)
    (by rw [hdrop]; exact hunnamed) none
  constructor
  case places => exact (h.retire timeout).places
  case tags => exact h.tags.retire timeout
  case cells => exact h.cells_set fun u hu => nomatch hu
  case waitNodup => exact h.waitNodup
  case waiting =>
    intro j
    rw [TallyEngine.setSlot, Four.get_set]
    split
    next hji => exact iff_of_false (hji ▸ hi) fun ⟨u, hu, _⟩ => nomatch hu
    next => exact h.waiting j
  case phases =>
    intro j u hu hutag
    rw [TallyEngine.setSlot, Four.get_set] at hu
    split at hu
    · cases hu
    · exact h.phases j u hu hutag
  case reads => exact hreads
  case writes => exact hwrites

end

/-! ### Every step (O59) -/

theorem TrafficLawful.issueWriteHalf_state {s : State} (h : TrafficLawful s.tally s.memory) :
    TrafficLawful s.issueWriteHalf.tally s.issueWriteHalf.memory := by
  rcases s.issueWriteHalf_cases with ⟨-, heq⟩ | ⟨i, rest, t, hwait, ht, heq⟩ | ⟨i, rest, hwait, hnone, -⟩
  · rw [heq]; exact h
  · rw [heq]; exact h.issueWriteHalf hwait ht _ _ _ _ _ _
  · obtain ⟨t, ht, -⟩ := (h.waiting i).1 (by simp [hwait])
    rw [hnone] at ht
    cases ht

theorem State.Move.keeps_trafficLawful {c : Instr} {s t : State} (hmove : State.Move c s t) (h : TrafficLawful s.tally s.memory) :
    TrafficLawful t.tally t.memory := by
  cases hmove with
  | powerOn _ _ _ _ _ hc ht =>
    subst hc
    cases ht
    exact .of_empty (fun i => Four.get_all none i) rfl rfl
  | issueRequest g _ hplace => exact h.issue hplace _ _ _ _ _ (by simp)
  | takeTally g i t _ hplace hwaiting _ hbusy hfree ht =>
    subst ht
    exact h.takeTally hplace hwaiting hfree hbusy rfl rfl _ _ _ _ _ _
  | issueWriteHalf => exact h.issueWriteHalf_state
  | issueLoaderRead b addr rest _ _ hplace => exact h.issue hplace _ _ _ _ _ (by simp)
  | retireRequest | retireOther => exact h.retire _
  | retireReadHalf x rest o i t v clamped hx horigin ht => exact h.retireReadHalf hx horigin ht v clamped _
  | endTally x rest o i t r hx horigin => exact h.endTally hx horigin _
  | countTimer => exact { h with }
  | _ => exact h

theorem State.issueWriteHalf_timerLawful {s : State} (h : s.memory.timerLawful) : s.issueWriteHalf.memory.timerLawful := by
  rcases s.issueWriteHalf_cases with ⟨-, heq⟩ | ⟨i, rest, t, -, -, heq⟩ | ⟨i, rest, -, -, heq⟩ <;> rw [heq]
  · exact h
  · exact MemoryPort.timerLawful.issue s.memory _ _ _ _ _ _
  · exact h

theorem State.Move.keeps_timerLawful {c : Instr} {s t : State} (hmove : State.Move c s t) (h : s.memory.timerLawful) :
    t.memory.timerLawful := by
  cases hmove with
  | powerOn _ _ _ _ _ hc ht =>
    subst hc
    cases ht
    exact fun _ => rfl
  | issueRequest | takeTally | issueLoaderRead => exact MemoryPort.timerLawful.issue s.memory _ _ _ _ _ _
  | issueWriteHalf => exact State.issueWriteHalf_timerLawful h
  | retireRequest | retireReadHalf | endTally | retireOther => exact MemoryPort.timerLawful.retire s.memory _
  | countTimer => exact fun hnil => by simp [h hnil]
  | _ => exact h

/-- Settles O59: every move keeps both laws. -/
theorem memoryPortLawKept : Obligations.MemoryPortLawKept := by
  unfold Obligations.MemoryPortLawKept
  intro s t htraffic htimer hstep
  rw [State.trafficLawful_iff] at htraffic ⊢
  exact ⟨keep_of_step (P := fun s => TrafficLawful s.tally s.memory) (fun _ _ h => h)
      (fun _ _ _ hmove => hmove.keeps_trafficLawful) htraffic hstep,
    keep_of_step (P := fun s => s.memory.timerLawful) (fun _ _ h => h) (fun _ _ _ hmove => hmove.keeps_timerLawful) htimer hstep⟩

end Sys2Proof.Machine
end

section
-- One theorem at a time: side by side the proofs ask for more threads than the sandbox grants.
set_option Elab.async false

/-! PROOFS. Tally memory traffic (R97): the fields of the tallies in flight, the last transaction issued to each of their cells, and every
write issued into a TALLY region, under each move: O60. -/
namespace Sys2Proof.Machine

/-! ### The bytes of a half (R85, R88, R91) -/

theorem isCell_iff (a : Addr) : isCell a = true ↔ a.toNat % 8 = 0 := by
  rw [isCell, beq_iff_eq, ← BitVec.toNat_inj, toNat_cellOf]
  omega

@[simp] theorem isCell_cellOf (a : Addr) : isCell (cellOf a) = true := by rw [isCell_iff, toNat_cellOf]; omega

@[simp] theorem TallyWidth.len_bytes (w : TallyWidth) : w.len.bytes = w.bytes := by cases w <;> rfl

theorem TallyWidth.bytes_pos (w : TallyWidth) : 0 < w.bytes := by cases w <;> decide

/-- The bytes of a half lie inside its cell (R85). -/
theorem Tally.fieldsLawful.span {t : Tally} (h : t.fieldsLawful) : t.cell.toNat % 8 = 0 ∧ t.offset + t.width.bytes ≤ 8 := by
  obtain ⟨hcell, hoffset⟩ := h
  refine ⟨(isCell_iff _).1 hcell, ?_⟩
  cases hw : t.width <;> rw [hw] at hoffset <;> simp only [TallyWidth.bytes] <;> omega

theorem Tally.fieldsLawful.addr_toNat {t : Tally} (h : t.fieldsLawful) : t.addr.toNat = t.cell.toNat + t.offset := by
  obtain ⟨hcell, hspan⟩ := h.span
  have hpos := t.width.bytes_pos
  have hlt := t.cell.isLt
  rw [Tally.addr, BitVec.toNat_add, BitVec.toNat_ofNat]
  omega

theorem Tally.fieldsLawful.cellOf_addr {t : Tally} (h : t.fieldsLawful) : cellOf t.addr = t.cell := by
  obtain ⟨hcell, hspan⟩ := h.span
  have hpos := t.width.bytes_pos
  rw [← BitVec.toNat_inj, toNat_cellOf, h.addr_toNat]
  omega

theorem Transaction.touches_iff (tx : Transaction) (c : Addr) :
    tx.touches c = true ↔ tx.addr.toNat ≤ c.toNat + 7 ∧ c.toNat < tx.addr.toNat + tx.len.bytes := by
  rw [Transaction.touches, Bool.and_eq_true, decide_eq_true_iff, decide_eq_true_iff]

/-- A half reaches its own cell and no other. -/
theorem Transaction.isHalf.touches_iff {tx : Transaction} {d : Dir} {t : Tally} (h : tx.isHalf d t) (ht : t.fieldsLawful) {c : Addr}
    (hc : c.toNat % 8 = 0) : tx.touches c = true ↔ c = t.cell := by
  obtain ⟨-, haddr, hlen⟩ := h
  obtain ⟨hcell, hspan⟩ := ht.span
  have hpos := t.width.bytes_pos
  rw [tx.touches_iff, haddr, hlen, TallyWidth.len_bytes, ht.addr_toNat, ← BitVec.toNat_inj]
  omega

/-! ### The last transaction to a cell -/

theorem lastTo_concat_of_touches {c : Addr} {tx : Transaction} (h : tx.touches c = true) (txs : List Transaction) :
    lastTo c (txs ++ [tx]) = some tx := by
  simp [lastTo, List.filter_append, h]

theorem lastTo_concat_of_not_touches {c : Addr} {tx : Transaction} (h : ¬tx.touches c = true) (txs : List Transaction) :
    lastTo c (txs ++ [tx]) = lastTo c txs := by
  simp [lastTo, List.filter_append, h]

/-- The last transaction to the cell of a tally is its own half (R88, R97), for one tally. -/
def Tally.Follows (t : Tally) (issued : List Transaction) : Prop :=
  ∃ tx, lastTo t.cell issued = some tx
    ∧ match t.phase, t.tag with
      | .reading, _ => tx.isHalf .read t
      | .writing _ _, none => tx.isHalf .read t
      | .writing _ _, some _ => tx.isHalf .write t

theorem State.tallyHistoryLawful_iff (s : State) :
    s.tallyHistoryLawful ↔ ∀ i t, s.tally.slots.get i = some t → t.Follows s.memory.issued := Iff.rfl

theorem Tally.Follows.concat {t : Tally} {issued : List Transaction} (h : t.Follows issued) {tx : Transaction}
    (htx : ¬tx.touches t.cell = true) : t.Follows (issued ++ [tx]) := by
  rw [Tally.Follows, lastTo_concat_of_not_touches htx]
  exact h

/-! ### The tallies of the slots (R85) -/

/-- Every tally in flight has its fields in range, lies in a TALLY region, and is followed by the transactions to its cell. -/
structure State.TalliesLawful (s : State) : Prop where
  fields : ∀ i t, s.tally.slots.get i = some t → t.fieldsLawful
  region : ∀ i t, s.tally.slots.get i = some t → s.loader.inTally t.cell.toNat = true
  follows : ∀ i t, s.tally.slots.get i = some t → t.Follows s.memory.issued
  idle : s.loader.part = .loading ∨ s.loader.part = .fetching → ∀ i, s.tally.slots.get i = none
  reading : s.loader.reading ≠ none → s.loader.part = .loading ∨ s.loader.part = .fetching

theorem State.talliesLawful_iff (s : State) : s.tallyCellsLawful ∧ s.tallyHistoryLawful ↔ s.TalliesLawful := by
  constructor
  · rintro ⟨⟨hcells, hidle, hreading⟩, hfollows⟩
    exact ⟨fun i t ht => (hcells i t ht).1, fun i t ht => (hcells i t ht).2, hfollows, hidle, hreading⟩
  · rintro ⟨hfields, hregion, hfollows, hidle, hreading⟩
    exact ⟨⟨fun i t ht => ⟨hfields i t ht, hregion i t ht⟩, hidle, hreading⟩, hfollows⟩

/-! ### The policy loader (R100, R135, R141) -/

theorem State.TalliesLawful.of_idle {s : State} (hslots : ∀ i, s.tally.slots.get i = none)
    (hreading : s.loader.reading ≠ none → s.loader.part = .loading ∨ s.loader.part = .fetching) : s.TalliesLawful where
  fields := fun i t ht => by rw [hslots] at ht; cases ht
  region := fun i t ht => by rw [hslots] at ht; cases ht
  follows := fun i t ht => by rw [hslots] at ht; cases ht
  idle := fun _ => hslots
  reading := hreading

theorem State.slots_of_drained {s : State} (h : s.drained = true) (i : SlotIx) : s.tally.slots.get i = none := by
  rw [State.drained, Bool.and_eq_true] at h
  have hall := h.2
  simp only [TallyEngine.inUse, beq_iff_eq, List.countP_eq_zero] at hall
  have hi := hall (s.tally.slots.get i) ((Four.mem_toList _ _).2 ⟨i, rfl⟩)
  simpa using hi

theorem State.LoaderEvent.keeps_talliesLawful {s : State} {l : Loader} (hevent : s.LoaderEvent l) (h : s.TalliesLawful) :
    ({ s with loader := l } : State).TalliesLawful := by
  cases hevent with
  | drain hrunning =>
    refine ⟨h.fields, h.region, h.follows, fun hpart => by simp at hpart, fun hreading => ?_⟩
    have hpart := h.reading hreading
    simp [hrunning] at hpart
  | fetch _ hdrained => exact .of_idle (State.slots_of_drained hdrained) fun _ => .inr rfl
  | read b hreading => exact ⟨h.fields, h.region, h.follows, h.idle, fun _ => h.reading hreading⟩
  | reject hreading => exact .of_idle (h.idle (h.reading hreading)) fun hne => absurd rfl hne
  | install b bytes hreading => exact .of_idle (h.idle (h.reading hreading)) fun hne => absurd rfl hne

/-! ### What a granted request reaches (R3, R9, R12) -/

theorem Loader.inTally_of_classify {l : Loader} {p : PortIx} {r : Req} :
    l.inTally r.addr.toNat = (l.classify p r).kind.isTally := rfl

theorem Loader.isTally_of_disp {l : Loader} {p : PortIx} {r : Req} {d : Disposition} (h : (l.classify p r).disp = d)
    (hd : ∀ k, d ≠ .answer k) : (l.classify p r).kind.isTally = true ↔ d = .tallyRead ∨ d = .tallyWrite := by
  obtain ⟨-, -, -, hdisp⟩ := Loader.disp_of_passed (l := l) (p := p) (r := r) (by simpa [h] using hd)
  rw [h] at hdisp
  subst hdisp
  cases (l.classify p r).kind <;> cases r.dir <;> simp [RegionKind.isTally, passedDisposition]

theorem Length.bytes_pos (len : Length) : 0 < len.bytes := by
  cases len with
  | single size => cases size <;> decide
  | burst extra => simp [Length.bytes]

/-- A request of another kind reaches no cell in a TALLY region. -/
theorem Loader.not_touches_of_not_tally {l : Loader} {p : PortIx} {r : Req} (hpassed : ∀ k, (l.classify p r).disp ≠ .answer k)
    (hkind : (l.classify p r).kind.isTally = false) {tx : Transaction} (haddr : tx.addr = r.addr) (hlen : tx.len = r.len) {c : Addr}
    (hc : c.toNat % 8 = 0) (hcell : l.inTally c.toNat = true) : ¬tx.touches c = true := by
  obtain ⟨haligned, -⟩ := Loader.disp_of_passed hpassed
  have hpos := Length.bytes_pos r.len
  rw [tx.touches_iff, haddr, hlen]
  rintro ⟨hlow, hhigh⟩
  obtain ⟨b, hfirst, hlast, hb⟩ : ∃ b, r.firstByte ≤ b ∧ b ≤ r.lastByte ∧ b / 8 = c.toNat / 8 := by
    rcases Nat.le_total r.addr.toNat c.toNat with hle | hle
    · exact ⟨c.toNat, hle, by rw [Req.lastByte]; omega, rfl⟩
    · exact ⟨r.addr.toNat, Nat.le_refl _, r.firstByte_le_lastByte, by omega⟩
  have hsame : l.areaOf c.toNat = l.areaOf r.firstByte :=
    (l.areaOf_congr (by omega)).trans (l.areaOf_of_aligned haligned hfirst hlast)
  rw [Loader.inTally, hsame] at hcell
  have : (l.classify p r).kind.isTally = true := hcell
  rw [hkind] at this
  cases this

/-- A request into a TALLY region that passed its checks is a single, aligned to its size, at least 4 bytes long if it writes (R8, R10). -/
theorem Loader.single_of_tally {l : Loader} {p : PortIx} {r : Req} (hpassed : ∀ k, (l.classify p r).disp ≠ .answer k)
    (hkind : (l.classify p r).kind.isTally = true) :
    ∃ size, r.len = .single size ∧ r.addr.toNat % size.bytes = 0 ∧ (r.dir = .write → 4 ≤ size.bytes) := by
  obtain ⟨haligned, hcheck, -⟩ := Loader.disp_of_passed hpassed
  cases hk : (l.classify p r).kind with
  | openRegion | guarded | fenced => rw [hk] at hkind; cases hkind
  | tally mode =>
    rw [hk] at hcheck
    cases hlen : r.len with
    | burst extra => simp [kindCheck, hlen, Length.isBurst] at hcheck
    | single size =>
      refine ⟨size, rfl, by simpa [Req.misaligned, hlen] using haligned, fun hwrite => ?_⟩
      simpa [kindCheck, hlen, Length.isBurst, Length.bytes, hwrite] using hcheck

/-- A single into a cell reaches no other cell. -/
theorem Transaction.not_touches_of_single {tx : Transaction} {r : Req} {size : Size} (haddr : tx.addr = r.addr) (hlen : tx.len = r.len)
    (hsingle : r.len = .single size) (haligned : r.addr.toNat % size.bytes = 0) {c : Addr} (hc : c.toNat % 8 = 0)
    (hne : c ≠ cellOf r.addr) : ¬tx.touches c = true := by
  rw [tx.touches_iff, haddr, hlen, hsingle]
  rw [ne_eq, ← BitVec.toNat_inj, toNat_cellOf] at hne
  cases size <;> simp only [Length.bytes, Size.bytes] at haligned ⊢ <;> omega

/-- A granted tally write becomes a tally whose fields are in range, and whose halves have the request's address and length (R85 to R88). -/
theorem Grant.newTally_fieldsLawful {l : Loader} {g : Grant} (hclass : g.cls = l.classify g.port g.acc.req)
    (hdisp : g.cls.disp = .tallyWrite) :
    g.newTally.fieldsLawful ∧ l.inTally g.newTally.cell.toNat = true ∧ g.newTally.addr = g.acc.req.addr
      ∧ g.newTally.width.len = g.acc.req.len := by
  have hpassed : ∀ k, (l.classify g.port g.acc.req).disp ≠ .answer k := by simp [← hclass, hdisp]
  have hkind := (Loader.isTally_of_disp (hclass ▸ hdisp) (by simp)).2 (.inr rfl)
  obtain ⟨size, hsingle, haligned, hwide⟩ := Loader.single_of_tally hpassed hkind
  have hwrite : g.acc.req.dir = .write := by
    obtain ⟨-, -, -, hpass⟩ := Loader.disp_of_passed hpassed
    rw [← hclass, hdisp] at hpass
    cases hk : g.cls.kind <;> cases hd : g.acc.req.dir <;> rw [hk, hd] at hpass <;> simp [passedDisposition] at hpass ⊢
  have hcell : g.newTally.cell = cellOf g.acc.req.addr := by simp [Grant.newTally, hclass, Loader.classify]
  have hoffset : g.newTally.offset = g.acc.req.addr.toNat % 8 := by
    have hle : (cellOf g.acc.req.addr).toNat ≤ g.acc.req.addr.toNat := by rw [toNat_cellOf]; omega
    have hsub : g.newTally.offset = (g.acc.req.addr - cellOf g.acc.req.addr).toNat := by
      simp [Grant.newTally, hclass, Loader.classify]
    rw [hsub, BitVec.toNat_sub_of_le (BitVec.le_def.2 hle), toNat_cellOf]
    omega
  have hwidth : g.newTally.width = widthOf g.acc.req.len := rfl
  have hfields : g.newTally.fieldsLawful := by
    refine ⟨by rw [hcell]; exact isCell_cellOf _, ?_⟩
    rw [hwidth, hsingle, hoffset]
    have hwide := hwide hwrite
    cases size <;> simp only [Size.bytes] at haligned hwide <;> simp only [widthOf] <;> omega
  refine ⟨hfields, ?_, ?_, ?_⟩
  · rw [hcell, Loader.inTally, l.areaOf_cellOf]
    exact hkind
  · rw [← BitVec.toNat_inj, hfields.addr_toNat, hcell, hoffset, toNat_cellOf]
    omega
  · have hwide := hwide hwrite
    rw [hwidth, hsingle]
    cases size with
    | s1 | s2 => simp [Size.bytes] at hwide
    | s4 | s8 => rfl

/-! ### The moves of the tally engine and the memory port -/

/-- A slot whose tally keeps its fields, while one transaction to its cell alone is issued, or none. -/
theorem State.TalliesLawful.set_slot {s t : State} (h : s.TalliesLawful) {i : SlotIx} {x : Option Tally}
    (hslots : t.tally.slots = s.tally.slots.set i x) (hloader : t.loader = s.loader)
    (hx : ∀ u, x = some u → u.fieldsLawful ∧ s.loader.inTally u.cell.toNat = true ∧ u.Follows t.memory.issued)
    (hidle : s.loader.part = .loading ∨ s.loader.part = .fetching → x = none)
    (hother : ∀ j u, j ≠ i → s.tally.slots.get j = some u → u.Follows t.memory.issued) : t.TalliesLawful := by
  have hget (j : SlotIx) : t.tally.slots.get j = if j = i then x else s.tally.slots.get j := by rw [hslots, Four.get_set]
  constructor
  case fields =>
    intro j u hu
    rw [hget] at hu
    split at hu
    · exact (hx u hu).1
    · exact h.fields j u hu
  case region =>
    intro j u hu
    rw [hloader]
    rw [hget] at hu
    split at hu
    · exact (hx u hu).2.1
    · exact h.region j u hu
  case follows =>
    intro j u hu
    rw [hget] at hu
    split at hu
    next => exact (hx u hu).2.2
    next hne => exact hother j u hne hu
  case idle =>
    intro hpart j
    rw [hloader] at hpart
    rw [hget]
    split
    · exact hidle hpart
    · exact h.idle hpart j
  case reading => rw [hloader]; exact h.reading

/-- One transaction is issued that reaches the cell of no tally in flight. -/
theorem State.TalliesLawful.issued {s t : State} (h : s.TalliesLawful) {tx : Transaction} (hslots : t.tally.slots = s.tally.slots)
    (hloader : t.loader = s.loader) (hissued : t.memory.issued = s.memory.issued ++ [tx])
    (htx : ∀ i u, s.tally.slots.get i = some u → ¬tx.touches u.cell = true) : t.TalliesLawful := by
  constructor
  case follows =>
    intro i u hu
    rw [hslots] at hu
    rw [hissued]
    exact (h.follows i u hu).concat (htx i u hu)
  all_goals simp only [hslots, hloader]
  · exact h.fields
  · exact h.region
  · exact h.idle
  · exact h.reading

theorem State.TalliesLawful.cell_mod {s : State} (h : s.TalliesLawful) {i : SlotIx} {t : Tally} (ht : s.tally.slots.get i = some t) :
    t.cell.toNat % 8 = 0 := (h.fields i t ht).span.1

/-- A granted request reaches no cell of a tally in flight: it lies in no TALLY region, or reads a cell that is not busy (R86, R97). -/
theorem State.TalliesLawful.not_touches_of_grant {s : State} (h : s.TalliesLawful) {g : Grant} (hoffers : s.Offers g)
    (hdisp : g.cls.disp = .forward ∨ g.cls.disp = .guardedRead ∨ g.cls.disp = .guardedWrite
      ∨ (g.cls.disp = .tallyRead ∨ g.cls.disp = .tallyWrite) ∧ s.tally.busy g.cls.cell = false)
    {tx : Transaction} (haddr : tx.addr = g.acc.req.addr) (hlen : tx.len = g.acc.req.len) {i : SlotIx} {t : Tally}
    (ht : s.tally.slots.get i = some t) : ¬tx.touches t.cell = true := by
  have hclass := hoffers.classified
  rw [hclass] at hdisp
  have hpassed : ∀ k, (s.loader.classify g.port g.acc.req).disp ≠ .answer k := by
    rcases hdisp with hd | hd | hd | ⟨hd | hd, -⟩ <;> simp [hd]
  have hkind := Loader.isTally_of_disp (l := s.loader) (p := g.port) (r := g.acc.req) rfl hpassed
  by_cases htally : (s.loader.classify g.port g.acc.req).kind.isTally = true
  · obtain ⟨size, hsingle, haligned, -⟩ := Loader.single_of_tally hpassed htally
    have hbusy : s.tally.busy (cellOf g.acc.req.addr) = false := by
      have htd := hkind.1 htally
      rcases hdisp with hd | hd | hd | ⟨-, hbusy⟩
      · simp [hd] at htd
      · simp [hd] at htd
      · simp [hd] at htd
      · exact hbusy
    exact Transaction.not_touches_of_single haddr hlen hsingle haligned (h.cell_mod ht)
      ((s.tally.busy_eq_false_iff _).1 hbusy i t ht)
  · exact Loader.not_touches_of_not_tally hpassed (Bool.not_eq_true _ ▸ htally) haddr hlen (h.cell_mod ht) (h.region i t ht)

theorem State.TalliesLawful.slot_cell_ne {s : State} (htraffic : TrafficLawful s.tally s.memory) {i j : SlotIx} {t u : Tally}
    (ht : s.tally.slots.get i = some t) (hu : s.tally.slots.get j = some u) (hne : j ≠ i) : u.cell ≠ t.cell :=
  fun hcell => hne (htraffic.cells j i u t hu ht hcell)

/-- The write half of a slot's tally is issued: the last transaction to the cell before it was the read half (R97). -/
theorem State.TalliesLawful.writeHalf {s : State} (h : s.TalliesLawful) (htraffic : TrafficLawful s.tally s.memory) {i : SlotIx}
    {rest : List SlotIx} {t : Tally} (hwait : s.tally.waiting = i :: rest) (ht : s.tally.slots.get i = some t) :
    (∃ v clamped, t.phase = .writing v clamped) ∧ ∃ r, lastTo t.cell s.memory.issued = some r ∧ r.isHalf .read t := by
  obtain ⟨u, hu, htag⟩ := (htraffic.waiting i).1 (by simp [hwait])
  rw [ht] at hu
  cases hu
  obtain ⟨v, clamped, hphase⟩ := htraffic.phases i t ht htag
  obtain ⟨r, hlast, hhalf⟩ := h.follows i t ht
  rw [hphase, htag] at hhalf
  exact ⟨⟨v, clamped, hphase⟩, r, hlast, hhalf⟩

theorem State.TalliesLawful.issueWriteHalf {s : State} (h : s.TalliesLawful) (htraffic : TrafficLawful s.tally s.memory) :
    s.issueWriteHalf.TalliesLawful := by
  rcases s.issueWriteHalf_cases with ⟨-, heq⟩ | ⟨i, rest, t, hwait, ht, heq⟩ | ⟨i, rest, hwait, hnone, -⟩
  · rw [heq]; exact h
  · obtain ⟨⟨v, clamped, hphase⟩, -⟩ := h.writeHalf htraffic hwait ht
    have hfields := h.fields i t ht
    rw [heq]
    refine h.set_slot (i := i) rfl rfl (fun u hu => ?_) (fun hpart => ?_) fun j u hne hu => ?_
    · cases hu
      refine ⟨hfields, h.region i t ht, _, lastTo_concat_of_touches (c := t.cell) ?_ _, ?_⟩
      · exact (Transaction.isHalf.touches_iff (d := .write) ⟨rfl, rfl, rfl⟩ hfields hfields.span.1).2 rfl
      · rw [hphase]
        exact ⟨rfl, rfl, rfl⟩
    · rw [h.idle hpart i] at ht
      cases ht
    · refine (h.follows j u hu).concat fun htouch => State.TalliesLawful.slot_cell_ne htraffic ht hu hne ?_
      exact (Transaction.isHalf.touches_iff (d := .write) ⟨rfl, rfl, rfl⟩ hfields (h.cell_mod hu)).1 htouch
  · obtain ⟨t, ht, -⟩ := (htraffic.waiting i).1 (by simp [hwait])
    rw [hnone] at ht
    cases ht

theorem State.Move.keeps_talliesLawful {c : Instr} {s t : State} (hmove : State.Move c s t) (h : s.TalliesLawful)
    (htraffic : TrafficLawful s.tally s.memory) : t.TalliesLawful := by
  cases hmove with
  | powerOn _ _ _ _ _ hc ht =>
    subst hc
    cases ht
    exact .of_idle (fun i => Four.get_all none i) fun _ => .inl rfl
  | loader _ hevent => exact hevent.keeps_talliesLawful h
  | issueRequest g hoffers _ _ hdisp =>
    refine h.issued (s := s) rfl rfl rfl fun i u hu => h.not_touches_of_grant hoffers ?_ rfl rfl hu
    rcases hdisp with hd | hd | hd | ⟨hd, hbusy⟩
    · exact .inl hd
    · exact .inr (.inl hd)
    · exact .inr (.inr (.inl hd))
    · exact .inr (.inr (.inr ⟨.inl hd, hbusy⟩))
  | takeTally g i u hoffers _ _ hdisp hbusy hfree hu =>
    subst hu
    obtain ⟨hfields, hregion, haddr, hlen⟩ := Grant.newTally_fieldsLawful hoffers.classified hdisp
    refine h.set_slot (i := i) rfl rfl (fun u hu => ?_) (fun hpart => ?_) fun j u hne hu => ?_
    · cases hu
      refine ⟨hfields, hregion, _, lastTo_concat_of_touches (c := g.newTally.cell) ?_ _, rfl, rfl, rfl⟩
      exact (Transaction.isHalf.touches_iff (d := .read) ⟨rfl, rfl, rfl⟩ hfields hfields.span.1).2 rfl
    · have hrunning := hoffers.running
      simp [hrunning] at hpart
    · exact (h.follows j u hu).concat (h.not_touches_of_grant hoffers (.inr (.inr (.inr ⟨.inr hdisp, hbusy⟩))) haddr hlen hu)
  | issueWriteHalf => exact h.issueWriteHalf htraffic
  | issueLoaderRead b addr rest hreading =>
    have hslots := h.idle (h.reading (by simp [hreading]))
    exact .of_idle hslots fun _ => h.reading (by simp [hreading])
  | retireReadHalf e rest o i u v clamped he horigin hu =>
    obtain ⟨u', hu', htag, hphase⟩ := htraffic.reads e (by simp [he]) o i horigin
    rw [hu] at hu'
    cases hu'
    refine h.set_slot (i := i) rfl rfl (fun w hw => ?_) (fun hpart => ?_) fun j w _ hw => h.follows j w hw
    · cases hw
      obtain ⟨r, hlast, hhalf⟩ := h.follows i u hu
      rw [hphase] at hhalf
      exact ⟨h.fields i u hu, h.region i u hu, r, hlast, hhalf⟩
    · rw [h.idle hpart i] at hu
      cases hu
  | endTally e rest o i u r he =>
    exact h.set_slot (i := i) rfl rfl (fun w hw => nomatch hw) (fun _ => rfl) fun j w _ hw => h.follows j w hw
  | _ => exact ⟨h.fields, h.region, h.follows, h.idle, h.reading⟩

/-! ### The writes that a step issues (R97) -/

/-- Each transaction of `extra`, issued behind `issued`, is the write half of a tally of `slots`, and the last transaction to its cell before
it is that tally's read half. -/
def FollowsReadHalves (slots : Four (Option Tally)) (issued extra : List Transaction) : Prop :=
  ∀ before tx after, extra = before ++ tx :: after →
    ∃ i x r, slots.get i = some x ∧ tx.isHalf .write x ∧ x.cell = cellOf tx.addr
      ∧ lastTo x.cell (issued ++ before) = some r ∧ r.isHalf .read x

theorem FollowsReadHalves.concat {slots : Four (Option Tally)} {issued extra : List Transaction}
    (h : FollowsReadHalves slots issued extra) {tx : Transaction}
    (htx : ∃ i x r, slots.get i = some x ∧ tx.isHalf .write x ∧ x.cell = cellOf tx.addr
      ∧ lastTo x.cell (issued ++ extra) = some r ∧ r.isHalf .read x) : FollowsReadHalves slots issued (extra ++ [tx]) := by
  intro before y after hsplit
  rcases List.eq_nil_or_concat after with rfl | ⟨after', z, rfl⟩
  · obtain ⟨rfl, hy⟩ := List.append_inj' hsplit rfl
    cases hy
    exact htx
  · refine h before y after' ?_
    rw [List.concat_eq_append, ← List.cons_append, ← List.append_assoc] at hsplit
    exact (List.append_inj' hsplit rfl).1

/-- The state after some of the write halves that wait in `s` have been issued. -/
structure State.WriteHalvesIssued (s x : State) : Prop where
  traffic : TrafficLawful x.tally x.memory
  tallies : x.TalliesLawful
  loader : x.loader = s.loader
  slots : ∀ i t, x.tally.slots.get i = some t →
    ∃ u, s.tally.slots.get i = some u ∧ u.cell = t.cell ∧ u.offset = t.offset ∧ u.width = t.width
  issued : ∃ extra, x.memory.issued = s.memory.issued ++ extra ∧ FollowsReadHalves s.tally.slots s.memory.issued extra

theorem State.WriteHalvesIssued.refl {s : State} (htraffic : TrafficLawful s.tally s.memory) (h : s.TalliesLawful) :
    s.WriteHalvesIssued s where
  traffic := htraffic
  tallies := h
  loader := rfl
  slots := fun _ t ht => ⟨t, ht, rfl, rfl, rfl⟩
  issued := ⟨[], (List.append_nil _).symm, fun before _ _ hsplit => by simp at hsplit⟩

theorem State.WriteHalvesIssued.issueWriteHalf {s x : State} (h : s.WriteHalvesIssued x) : s.WriteHalvesIssued x.issueWriteHalf := by
  have htraffic := h.traffic.issueWriteHalf_state
  have htallies := h.tallies.issueWriteHalf h.traffic
  rcases x.issueWriteHalf_cases with ⟨-, heq⟩ | ⟨i, rest, t, hwait, ht, heq⟩ | ⟨i, rest, hwait, hnone, heq⟩
  · rw [heq]; exact h
  · obtain ⟨-, r, hlast, hhalf⟩ := h.tallies.writeHalf h.traffic hwait ht
    obtain ⟨u, hu, hcell, hoffset, hwidth⟩ := h.slots i t ht
    obtain ⟨extra, hissued, hfollows⟩ := h.issued
    have haddr : u.addr = t.addr := by rw [Tally.addr, hcell, hoffset, Tally.addr]
    refine ⟨htraffic, htallies, (State.issueWriteHalf_loader x).trans h.loader, fun j v hv => ?_, ?_⟩
    · rw [heq] at hv
      rw [Four.get_set] at hv
      split at hv
      next hji => cases hv; exact ⟨u, hji ▸ hu, hcell, hoffset, hwidth⟩
      next => exact h.slots j v hv
    · refine ⟨extra ++ [{ tag := x.memory.nextTag, dir := .write, addr := t.addr, len := t.width.len, data := t.writeData }], ?_,
        hfollows.concat ⟨i, u, r, hu, ⟨rfl, haddr.symm, by rw [hwidth]⟩, ?_, ?_, ?_⟩⟩
      · rw [heq]
        simp [hissued]
      · rw [hcell]
        exact (h.tallies.fields i t ht).cellOf_addr.symm
      · rw [hcell, ← hissued, hlast]
      · obtain ⟨hdir, hraddr, hrlen⟩ := hhalf
        exact ⟨hdir, hraddr.trans haddr.symm, by rw [hrlen, hwidth]⟩
  · obtain ⟨t, ht, -⟩ := (h.traffic.waiting i).1 (by simp [hwait])
    rw [hnone] at ht
    cases ht

theorem State.WriteHalvesIssued.issueWriteHalves {s x : State} (h : s.WriteHalvesIssued x) : s.WriteHalvesIssued x.issueWriteHalves := by
  unfold State.issueWriteHalves
  generalize x.tally.waiting = w
  induction w generalizing x with
  | nil => exact h
  | cons i w ih => exact ih h.issueWriteHalf

/-- What a command other than an issue leaves of the transactions issued (R119). -/
theorem State.Move.issued_eq {c : Instr} {s t : State} (hmove : State.Move c s t) (hadmission : c ≠ .admission)
    (hwrite : c ≠ .writeHalfIssue) (hread : c ≠ .loaderReadIssue) :
    t.memory.issued = s.memory.issued ∨ t.memory.issued = [] := by
  cases hmove with
  | powerOn _ _ _ _ _ hc ht =>
    subst hc
    cases ht
    exact .inr rfl
  | issueRequest _ _ _ _ _ hc => exact absurd hc hadmission
  | takeTally _ _ _ _ _ _ _ _ _ _ hc => exact absurd hc hadmission
  | issueWriteHalf hc => exact hc.elim (absurd · hadmission) (absurd · hwrite)
  | issueLoaderRead _ _ _ _ _ _ hc => exact absurd hc hread
  | _ => exact .inl rfl

theorem State.Moves.issued_eq {c : Instr} {s t : State} (h : State.Moves c s t) (hadmission : c ≠ .admission)
    (hwrite : c ≠ .writeHalfIssue) (hread : c ≠ .loaderReadIssue) :
    t.memory.issued = s.memory.issued ∨ t.memory.issued = [] := by
  refine h.keep (P := fun x => x.memory.issued = s.memory.issued ∨ x.memory.issued = []) (fun x y hmove hx => ?_) (.inl rfl)
  rcases hmove.issued_eq hadmission hwrite hread with hy | hy
  · rw [hy]; exact hx
  · exact .inr hy

/-! ### The tally engine and the memory port after a grant -/

/-- Issues read the tally engine, the memory port and the loader alone. -/
structure State.SameTraffic (s x : State) : Prop where
  tally : x.tally = s.tally
  memory : x.memory = s.memory
  loader : x.loader = s.loader

theorem State.SameTraffic.issueWriteHalf {s x : State} (h : s.SameTraffic x) : s.issueWriteHalf.SameTraffic x.issueWriteHalf := by
  obtain ⟨htally, hmemory, hloader⟩ := h
  have hloader' : x.issueWriteHalf.loader = s.issueWriteHalf.loader := by
    rw [State.issueWriteHalf_loader, State.issueWriteHalf_loader, hloader]
  rcases s.issueWriteHalf_cases with ⟨hwait, -⟩ | ⟨i, rest, t, hwait, ht, -⟩ | ⟨i, rest, hwait, ht, -⟩
  · exact ⟨by simp [State.issueWriteHalf, htally, hwait], by simp [State.issueWriteHalf, htally, hmemory, hwait], hloader'⟩
  · exact ⟨by simp [State.issueWriteHalf, htally, hmemory, hwait, ht, State.issue],
      by simp [State.issueWriteHalf, htally, hmemory, hloader, hwait, ht, State.issue], hloader'⟩
  · exact ⟨by simp [State.issueWriteHalf, htally, hwait, ht], by simp [State.issueWriteHalf, htally, hmemory, hwait, ht], hloader'⟩

theorem State.SameTraffic.issueWriteHalves {s x : State} (h : s.SameTraffic x) : s.issueWriteHalves.SameTraffic x.issueWriteHalves := by
  unfold State.issueWriteHalves
  rw [h.tally]
  generalize s.tally.waiting = w
  induction w generalizing s x with
  | nil => exact h
  | cons i w ih => exact ih h.issueWriteHalf

theorem State.SameTraffic.issueRequest {s x : State} (h : s.SameTraffic x) (g : Grant) :
    (s.issueRequest g).SameTraffic (x.issueRequest g) := by
  obtain ⟨htally, hmemory, hloader⟩ := h.issueWriteHalves
  exact ⟨htally, by simp only [State.issueRequest, State.issue, hmemory, hloader], hloader⟩

theorem State.SameTraffic.trans {s x y : State} (h : s.SameTraffic x) (hy : x.SameTraffic y) : s.SameTraffic y :=
  ⟨hy.tally.trans h.tally, hy.memory.trans h.memory, hy.loader.trans h.loader⟩

theorem State.sameTraffic_leaveQueue (s : State) (g : Grant) : s.SameTraffic (s.leaveQueue g) := ⟨rfl, rfl, rfl⟩

theorem State.sameTraffic_takeRunOuts (s : State) : s.SameTraffic s.takeRunOuts := ⟨by simp, by simp, by simp⟩

theorem State.sameTraffic_takeMonitor (s : State) (x : MonitorStep) : s.SameTraffic (s.takeMonitor x) := ⟨by simp, by simp, by simp⟩

/-- A grant that issues no transaction leaves both blocks; any other issues the write halves that wait and its own behind them (R119). -/
theorem State.grantEffects_traffic {s : State} {g : Grant} (h : s.winner = some g) :
    (((∃ k, g.cls.disp = .answer k) ∨ g.cls.disp = .guardedWrite) ∧ s.SameTraffic ((s.leaveQueue g).grantEffects g))
      ∨ (g.cls.disp = .forward ∨ g.cls.disp = .tallyRead ∨ g.cls.disp = .guardedRead ∨ g.cls.disp = .guardedWrite)
        ∧ (s.issueRequest g).SameTraffic ((s.leaveQueue g).grantEffects g)
      ∨ g.cls.disp = .tallyWrite ∧ ∃ i, s.tally.freeSlot = some i ∧ (s.leaveQueue g).grantEffects g = (s.takeTally g i).leaveQueue g := by
  have hrespond (x : State) (k : Cause) (m : MonitorStep) (hx : s.SameTraffic x) :
      s.SameTraffic ((x.respond g.port g.acc.id k []).takeMonitor m) :=
    hx.trans (State.SameTraffic.trans (x := x.respond g.port g.acc.id k []) ⟨rfl, rfl, rfl⟩ (State.sameTraffic_takeMonitor _ m))
  have hleave := s.sameTraffic_leaveQueue g
  have hexpired := hleave.trans (s.leaveQueue g).sameTraffic_takeRunOuts
  unfold State.grantEffects
  cases hdisp : g.cls.disp with
  | answer k => exact .inl ⟨.inl ⟨k, rfl⟩, hrespond _ k _ hleave⟩
  | forward => exact .inr (.inl ⟨.inl rfl, hleave.issueRequest g⟩)
  | tallyRead => exact .inr (.inl ⟨.inr (.inl rfl), hleave.issueRequest g⟩)
  | guardedRead =>
    exact .inr (.inl ⟨.inr (.inr (.inl rfl)), (hexpired.trans (State.sameTraffic_takeMonitor _ _)).issueRequest g⟩)
  | guardedWrite =>
    dsimp only
    unfold State.takeGuardedWrite
    split
    next k _ => exact .inl ⟨.inr rfl, hrespond _ k _ hexpired⟩
    next =>
      exact .inr (.inl ⟨.inr (.inr (.inr rfl)), (hexpired.trans (State.sameTraffic_takeMonitor _ _)).issueRequest g⟩)
  | tallyWrite =>
    obtain ⟨-, hfree⟩ := State.offers_of_winner h
    simp only [State.resourcesFree, hdisp, Bool.and_eq_true] at hfree
    obtain ⟨i, hi⟩ := Option.isSome_iff_exists.1 hfree.1.2
    refine .inr (.inr ⟨rfl, i, hi, ?_⟩)
    simp only [State.leaveQueue_tally, hi, State.takeTally, State.issueWriteHalves_leaveQueue]
    rfl

/-- A grant issues at most one transaction behind the write halves, and that is no write into a TALLY region (R97). -/
theorem State.grantEffects_issued {s : State} {g : Grant} (h : s.winner = some g) :
    ((s.leaveQueue g).grantEffects g).memory.issued = s.memory.issued
      ∨ ∃ tx, ((s.leaveQueue g).grantEffects g).memory.issued = s.issueWriteHalves.memory.issued ++ [tx]
        ∧ (tx.dir = .write → s.loader.inTally tx.addr.toNat = false) := by
  obtain ⟨hoffers, -⟩ := State.offers_of_winner h
  rcases State.grantEffects_traffic h with ⟨-, hsame⟩ | ⟨hdisp, hsame⟩ | ⟨-, i, -, heq⟩
  · exact .inl (by rw [hsame.memory])
  · refine .inr ⟨_, by rw [hsame.memory]; rfl, fun hwrite => ?_⟩
    rw [hoffers.classified] at hdisp
    have hpassed : ∀ k, (s.loader.classify g.port g.acc.req).disp ≠ .answer k := by
      rcases hdisp with hd | hd | hd | hd <;> simp [hd]
    obtain ⟨-, -, -, hpass⟩ := Loader.disp_of_passed hpassed
    have hkind := Loader.isTally_of_disp (l := s.loader) (p := g.port) (r := g.acc.req) rfl hpassed
    refine (Bool.eq_false_iff).2 fun htally => ?_
    have htd := hkind.1 htally
    have hdir : g.acc.req.dir = .write := hwrite
    rw [hdir] at hpass
    rcases htd with hd | hd
    · rw [hd] at hpass
      cases hk : (s.loader.classify g.port g.acc.req).kind <;> rw [hk] at hpass <;> cases hpass
    · rcases hdisp with hd' | hd' | hd' | hd' <;> rw [hd'] at hd <;> cases hd
  · refine .inr ⟨_, by rw [heq]; rfl, fun hwrite => ?_⟩
    cases hwrite

/-- What the issue of write halves, and nothing else, says of a write issued into a TALLY region. -/
theorem FollowsReadHalves.of_append {slots : Four (Option Tally)} {issued extra before after : List Transaction} {tx : Transaction}
    (h : FollowsReadHalves slots issued extra) (hsplit : issued ++ extra = issued ++ before ++ tx :: after) :
    ∃ i x r, slots.get i = some x ∧ tx.isHalf .write x ∧ x.cell = cellOf tx.addr
      ∧ lastTo x.cell (issued ++ before) = some r ∧ r.isHalf .read x := by
  rw [List.append_assoc, List.append_cancel_left_eq] at hsplit
  exact h before tx after hsplit

theorem execLoaderReadIssue_issued {s t : State} (h : execLoaderReadIssue s = .next t) :
    t.memory.issued = s.memory.issued ∨ ∃ tx, t.memory.issued = s.memory.issued ++ [tx] ∧ tx.dir = .read := by
  unfold execLoaderReadIssue at h
  split at h
  · cases h; exact .inl rfl
  · split at h
    · cases h; exact .inl rfl
    · split at h
      · cases h; exact .inr ⟨_, rfl, rfl⟩
      · cases h; exact .inl rfl

/-- A write that a command issues into a TALLY region follows the read half of its own tally (R97). -/
theorem State.exec_writes {c : Instr} {s t : State} (htraffic : TrafficLawful s.tally s.memory) (h : s.TalliesLawful)
    (hexec : exec c s = .next t) {before after : List Transaction} {tx : Transaction}
    (hissued : t.memory.issued = s.memory.issued ++ before ++ tx :: after) (hwrite : tx.dir = .write)
    (htally : s.loader.inTally tx.addr.toNat = true) :
    ∃ i x r, s.tally.slots.get i = some x ∧ tx.isHalf .write x ∧ x.cell = cellOf tx.addr
      ∧ lastTo x.cell (s.memory.issued ++ before) = some r ∧ r.isHalf .read x := by
  have hsame (hs : t.memory.issued = s.memory.issued) : False := by
    have hlength := congrArg List.length (hs.symm.trans hissued)
    simp at hlength
  have hlast (issued : List Transaction) (y : Transaction) (hy : t.memory.issued = issued ++ [y]) (hne : y ≠ tx) :
      ∃ after', issued = s.memory.issued ++ before ++ tx :: after' := by
    rcases List.eq_nil_or_concat after with rfl | ⟨after', z, rfl⟩
    · exact absurd (List.singleton_inj.1 (List.append_inj' (hy.symm.trans hissued) rfl).2) hne
    · refine ⟨after', ?_⟩
      rw [List.concat_eq_append, ← List.cons_append, ← List.append_assoc, hy] at hissued
      exact (List.append_inj' hissued rfl).1
  have hstart := State.WriteHalvesIssued.refl htraffic h
  by_cases hadmission : c = .admission
  · subst hadmission
    cases hwin : s.winner with
    | none =>
      have heq : exec .admission s = .next s := by
        change execAdmission s = _
        rw [execAdmission, hwin]
      rw [heq] at hexec
      cases hexec
      exact (hsame rfl).elim
    | some g =>
      rw [exec_admission hwin] at hexec
      cases hexec
      rcases State.grantEffects_issued hwin with hs | ⟨y, hy, hnot⟩
      · exact (hsame hs).elim
      · obtain ⟨after', hafter⟩ := hlast _ y hy fun hyt => by
          subst hyt
          rw [hnot hwrite] at htally
          cases htally
        obtain ⟨extra, hextra, hfollows⟩ := hstart.issueWriteHalves.issued
        exact hfollows.of_append (hextra.symm.trans hafter)
  · by_cases hhalf : c = .writeHalfIssue
    · subst hhalf
      cases hexec
      obtain ⟨extra, hextra, hfollows⟩ := hstart.issueWriteHalf.issued
      exact hfollows.of_append (hextra.symm.trans hissued)
    · by_cases hread : c = .loaderReadIssue
      · subst hread
        rcases execLoaderReadIssue_issued hexec with hs | ⟨y, hy, hdir⟩
        · exact (hsame hs).elim
        · obtain ⟨after', hafter⟩ := hlast _ y hy fun hyt => by
            rw [← hyt, hdir] at hwrite
            cases hwrite
          have hlength := congrArg List.length hafter
          simp at hlength
      · rcases (moves_of_exec hexec).issued_eq hadmission hhalf hread with hs | hs
        · exact (hsame hs).elim
        · rw [hs] at hissued
          simp at hissued

/-- Settles O60: every move keeps the laws of the tallies, and the write halves are the only writes into TALLY regions. -/
theorem tallyTrafficLaw : Obligations.TallyTrafficLaw := by
  unfold Obligations.TallyTrafficLaw
  intro s t htraffic hcells hhistory hstep
  have htraffic := (State.trafficLawful_iff s).1 htraffic
  have htallies := (State.talliesLawful_iff s).1 ⟨hcells, hhistory⟩
  have hkept := keep_of_step (P := fun x => TrafficLawful x.tally x.memory ∧ x.TalliesLawful)
    (fun x rest hx => ⟨hx.1, hx.2.fields, hx.2.region, hx.2.follows, hx.2.idle, hx.2.reading⟩)
    (fun _ _ _ hmove hx => ⟨hmove.keeps_trafficLawful hx.1, hmove.keeps_talliesLawful hx.2 hx.1⟩) ⟨htraffic, htallies⟩ hstep
  obtain ⟨hcells', hhistory'⟩ := (State.talliesLawful_iff t).2 hkept.2
  refine ⟨hcells', hhistory', fun before tx after hissued hwrite htally => ?_⟩
  unfold step at hstep
  split at hstep
  · cases hstep
    have hlength := congrArg List.length hissued
    simp at hlength
  next c rest _ =>
    exact State.exec_writes (s := { s with pending := rest }) htraffic
      ⟨htallies.fields, htallies.region, htallies.follows, htallies.idle, htallies.reading⟩ hstep hissued hwrite htally

end Sys2Proof.Machine
end

section
-- One theorem at a time: side by side the proofs ask for more threads than the sandbox grants.
set_option Elab.async false

/-! PROOFS. The law of responses (R102, R105 to R107): the order lists of the front ends under their operations, the work in flight, and
the law under each move: O10. -/
namespace Sys2Proof.Machine

/-! ### One front end (R102 to R108) -/

/-- Work of the request, which is admitted, is left in the front end (R105). -/
def Port.Needs (q : Port) (id : Nat) : Prop :=
  ∃ e ∈ q.order, e.acc.id = id ∧ e.state.unfinished = true ∧ ∀ acc ∈ q.queue, acc.id ≠ id

/-- The law of a front end, but for the removal of finished heads (R102, R104, R108). -/
structure Port.LawfulUnswept (q : Port) : Prop where
  window : q.window ≤ Config.windowSize
  inOrder : q.inOrder
  split : ∃ admitted, q.order = admitted ++ q.queue.map fun acc => { acc := acc, state := .pending }
  epoch : ∀ e ∈ q.order, e.state = .pending → e.acc.epoch = q.epoch

theorem Port.lawful_iff (q : Port) : q.lawful ↔ q.LawfulUnswept ∧ ∀ e, q.order.head? = some e → e.state.isFinished = false := by
  constructor
  · rintro ⟨hwindow, horder, hsplit, hhead, hepoch⟩
    exact ⟨⟨hwindow, horder, hsplit, hepoch⟩, hhead⟩
  · rintro ⟨⟨hwindow, horder, hsplit, hepoch⟩, hhead⟩
    exact ⟨hwindow, horder, hsplit, hhead, hepoch⟩

theorem EntryState.isFinished_of_unfinished {e : EntryState} (h : e.unfinished = true) : e.isFinished = false := by
  cases e with
  | pending | ready _ => rfl
  | discard f => simpa [EntryState.unfinished, EntryState.isFinished] using h

section
variable {q : Port}

theorem Port.LawfulUnswept.inOrder_of_sublist (h : q.inOrder) {l : List OrderEntry}
    (hl : (l.map (·.acc)).Sublist (q.order.map (·.acc))) :
    (l.map (·.acc.id)).Pairwise (· < ·) ∧ ∀ e ∈ l, e.acc.id < q.nextId := by
  obtain ⟨hincreasing, hbelow⟩ := h
  have hids : (l.map (·.acc.id)).Sublist (q.order.map (·.acc.id)) := by
    have hmap := hl.map (·.id)
    rw [List.map_map, List.map_map] at hmap
    exact hmap
  refine ⟨hincreasing.sublist hids, fun e he => ?_⟩
  obtain ⟨f, hf, hfe⟩ := List.mem_map.1 (hl.subset (List.mem_map_of_mem (f := (·.acc)) he))
  have := hbelow f hf
  rwa [hfe] at this

/-- Elements of a list with pairwise different marks are the same where their marks are. -/
theorem eq_of_pairwise_ne {α β : Type} {f : α → β} {l : List α} (h : l.Pairwise fun x y => f x ≠ f y) {x y : α} (hx : x ∈ l) (hy : y ∈ l)
    (hf : f x = f y) : x = y := by
  induction l with
  | nil => cases hx
  | cons z l ih =>
    obtain ⟨hz, hl⟩ := List.pairwise_cons.1 h
    rcases List.mem_cons.1 hx with rfl | hxl <;> rcases List.mem_cons.1 hy with rfl | hyl
    · rfl
    · exact absurd hf (hz y hyl)
    · exact absurd hf.symm (hz x hxl)
    · exact ih hl hxl hyl

/-- Two entries of a front end with one acceptance number are one entry. -/
theorem Port.eq_of_id_eq (h : q.inOrder) {e f : OrderEntry} (he : e ∈ q.order) (hf : f ∈ q.order) (hid : e.acc.id = f.acc.id) :
    e = f :=
  eq_of_pairwise_ne ((List.pairwise_map.1 h.1).imp fun hlt => Nat.ne_of_lt hlt) he hf hid

/-- Finished heads leave: the law of the front end is whole again (R107). -/
theorem Port.LawfulUnswept.sweep (h : q.LawfulUnswept) : q.sweep.lawful := by
  have hsuffix : q.sweep.order.Sublist q.order := List.dropWhile_sublist _
  rw [Port.lawful_iff]
  refine ⟨⟨?_, Port.LawfulUnswept.inOrder_of_sublist h.inOrder (hsuffix.map _), ?_, fun e he => h.epoch e (hsuffix.subset he)⟩,
    q.sweep_head⟩
  · exact Nat.le_trans hsuffix.length_le h.window
  · obtain ⟨admitted, hsplit⟩ := h.split
    refine ⟨admitted.dropWhile fun e => e.state.isFinished, ?_⟩
    have hpending : (q.queue.map fun acc => ({ acc := acc, state := .pending } : OrderEntry)).dropWhile (fun e => e.state.isFinished)
        = q.queue.map fun acc => { acc := acc, state := .pending } := by
      cases q.queue <;> rfl
    rw [Port.sweep_order, hsplit, List.dropWhile_append, hpending, Port.sweep_queue]
    split
    next hnil => rw [List.isEmpty_iff.1 hnil, List.nil_append]
    next => rfl

theorem Port.needs_sweep (q : Port) (id : Nat) : q.sweep.Needs id ↔ q.Needs id := by
  constructor
  · rintro ⟨e, he, hneeds⟩
    exact ⟨e, (List.dropWhile_sublist _).subset he, hneeds⟩
  · rintro ⟨e, he, hid, hunfinished, hqueue⟩
    exact ⟨e, Port.mem_sweep_of_unfinished he (EntryState.isFinished_of_unfinished hunfinished), hid, hunfinished, hqueue⟩

/-- The entry of an admitted request comes to a state in which no work of it is left (R105). -/
theorem Port.LawfulUnswept.updEntry (h : q.LawfulUnswept) {id : Nat} {f : EntryState → EntryState} (hqueue : ∀ acc ∈ q.queue, acc.id ≠ id)
    (hf : ∀ e ∈ q.order, e.acc.id = id → (f e.state).unfinished = false) : (q.updEntry id f).LawfulUnswept := by
  constructor
  case window =>
    have hlength : (q.updEntry id f).window = q.window := by simp [Port.window, Port.updEntry]
    rw [hlength]
    exact h.window
  case inOrder => exact Port.LawfulUnswept.inOrder_of_sublist h.inOrder (q.updEntry_accs id f ▸ List.Sublist.refl _)
  case split =>
    obtain ⟨admitted, hsplit⟩ := h.split
    refine ⟨admitted.map fun e => if e.acc.id = id then { e with state := f e.state } else e, ?_⟩
    rw [Port.updEntry, hsplit, List.map_append, List.map_map]
    refine congrArg _ (List.map_congr_left fun acc hacc => ?_)
    exact if_neg (hqueue acc hacc)
  case epoch =>
    intro e he hpending
    obtain ⟨e0, he0, rfl⟩ := (q.mem_updEntry id f e).1 he
    split at hpending
    next hid =>
      have hdone := hf e0 he0 hid
      rw [show f e0.state = .pending from hpending] at hdone
      cases hdone
    next hid =>
      rw [if_neg hid]
      exact h.epoch e0 he0 hpending

theorem Port.needs_updEntry {id : Nat} {f : EntryState → EntryState}
    (hf : ∀ e ∈ q.order, e.acc.id = id → (f e.state).unfinished = false) (id' : Nat) :
    (q.updEntry id f).Needs id' ↔ id' ≠ id ∧ q.Needs id' := by
  constructor
  · rintro ⟨e, he, hid, hunfinished, hqueue⟩
    obtain ⟨e0, he0, rfl⟩ := (q.mem_updEntry id f e).1 he
    by_cases hid0 : e0.acc.id = id
    · simp only [if_pos hid0] at hunfinished
      rw [hf e0 he0 hid0] at hunfinished
      cases hunfinished
    · simp only [if_neg hid0] at hid hunfinished
      exact ⟨fun heq => hid0 (hid.trans heq), e0, he0, hid, hunfinished, hqueue⟩
  · rintro ⟨hne, e, he, hid, hunfinished, hqueue⟩
    refine ⟨e, (q.mem_updEntry id f e).2 ⟨e, he, ?_⟩, hid, hunfinished, hqueue⟩
    rw [if_neg fun heq => hne (hid.symm.trans heq)]

theorem EntryState.complete_unfinished (e : EntryState) (r : Response) : (e.complete r).unfinished = false := by cases e <;> rfl

theorem EntryState.finish_unfinished {e : EntryState} (h : e ≠ .pending) : e.finish.unfinished = false := by
  cases e with
  | pending => exact absurd rfl h
  | ready _ | discard _ => rfl

theorem Port.complete_lawful (h : q.LawfulUnswept) {id : Nat} (hqueue : ∀ acc ∈ q.queue, acc.id ≠ id) (r : Response) :
    (q.complete id r).lawful := (h.updEntry hqueue fun e _ _ => e.state.complete_unfinished r).sweep

theorem Port.needs_complete (q : Port) (id : Nat) (r : Response) (id' : Nat) :
    (q.complete id r).Needs id' ↔ id' ≠ id ∧ q.Needs id' :=
  (Port.needs_sweep _ id').trans (Port.needs_updEntry (fun e _ _ => e.state.complete_unfinished r) id')

theorem Port.finish_lawful (h : q.LawfulUnswept) {id : Nat} (hqueue : ∀ acc ∈ q.queue, acc.id ≠ id)
    (hpending : ∀ e ∈ q.order, e.acc.id = id → e.state ≠ .pending) : (q.finish id).lawful :=
  (h.updEntry hqueue fun e he hid => EntryState.finish_unfinished (hpending e he hid)).sweep

theorem Port.needs_finish {id : Nat} (hpending : ∀ e ∈ q.order, e.acc.id = id → e.state ≠ .pending) (id' : Nat) :
    (q.finish id).Needs id' ↔ id' ≠ id ∧ q.Needs id' :=
  (Port.needs_sweep _ id').trans (Port.needs_updEntry (fun e he hid => EntryState.finish_unfinished (hpending e he hid)) id')

/-- The request at the head of the queue is admitted: it leaves the queue (R113). -/
theorem Port.LawfulUnswept.dequeue (h : q.LawfulUnswept) {acc : Accepted} {rest : List Accepted} (hqueue : q.queue = acc :: rest) :
    ({ q with queue := q.queue.tail } : Port).LawfulUnswept := by
  obtain ⟨admitted, hsplit⟩ := h.split
  refine { window := h.window, inOrder := h.inOrder, epoch := h.epoch, split := ⟨admitted ++ [{ acc := acc, state := .pending }], ?_⟩ }
  rw [hsplit, hqueue]
  simp

/-- The entries of the queue stand in the order list, PENDING (R102). -/
theorem Port.LawfulUnswept.mem_order_of_queue (h : q.LawfulUnswept) {acc : Accepted} (hacc : acc ∈ q.queue) :
    { acc := acc, state := .pending } ∈ q.order := by
  obtain ⟨admitted, hsplit⟩ := h.split
  rw [hsplit]
  exact List.mem_append_right _ (List.mem_map_of_mem hacc)

theorem Port.not_needs_of_queue {acc : Accepted} (hacc : acc ∈ q.queue) : ¬q.Needs acc.id :=
  fun ⟨_, _, _, _, hqueue⟩ => hqueue acc hacc rfl

/-- The numbers of the requests that wait behind the head of the queue are others. -/
theorem Port.LawfulUnswept.head_ne (h : q.LawfulUnswept) {acc : Accepted} {rest : List Accepted} (hqueue : q.queue = acc :: rest) :
    ∀ acc' ∈ rest, acc'.id ≠ acc.id := by
  obtain ⟨admitted, hsplit⟩ := h.split
  obtain ⟨hincreasing, -⟩ := h.inOrder
  rw [hsplit, hqueue, List.map_append, List.map_cons, List.map_cons] at hincreasing
  have hbehind := (List.pairwise_cons.1 (List.pairwise_append.1 hincreasing).2.1).1
  intro acc' hacc' hid
  have hlt := hbehind acc'.id (List.mem_map.2 ⟨{ acc := acc', state := .pending }, List.mem_map_of_mem hacc', rfl⟩)
  exact absurd hlt (by rw [hid]; exact Nat.lt_irrefl _)

theorem Port.LawfulUnswept.needs_dequeue (h : q.LawfulUnswept) {acc : Accepted} {rest : List Accepted} (hqueue : q.queue = acc :: rest)
    (id' : Nat) : ({ q with queue := q.queue.tail } : Port).Needs id' ↔ id' = acc.id ∨ q.Needs id' := by
  have htail : q.queue.tail = rest := by rw [hqueue]; rfl
  constructor
  · rintro ⟨e, he, hid, hunfinished, hrest⟩
    by_cases hacc : id' = acc.id
    · exact .inl hacc
    · refine .inr ⟨e, he, hid, hunfinished, fun acc' hacc' => ?_⟩
      rcases List.mem_cons.1 (hqueue ▸ hacc') with rfl | hacc'
      · exact Ne.symm hacc
      · exact hrest acc' (htail ▸ hacc')
  · rintro (rfl | ⟨e, he, hid, hunfinished, hall⟩)
    · refine ⟨_, h.mem_order_of_queue (acc := acc) (by simp [hqueue]), rfl, rfl, fun acc' hacc' => ?_⟩
      exact h.head_ne hqueue acc' (htail ▸ hacc')
    · exact ⟨e, he, hid, hunfinished, fun acc' hacc' => hall acc' (List.mem_of_mem_tail hacc')⟩

/-- Acceptance (R103). -/
theorem Port.accept_lawful (h : q.lawful) (haccepts : q.accepts = true) (r : Req) : (q.accept r).lawful := by
  obtain ⟨⟨-, ⟨hincreasing, hbelow⟩, ⟨admitted, hsplit⟩, hepoch⟩, hhead⟩ := (q.lawful_iff).1 h
  obtain ⟨hqueue, horder, hepoch', -, -, hnext⟩ := q.accept_spec r
  have hlength : q.order.length < Config.windowSize := by
    rw [Port.accepts, Bool.and_eq_true, decide_eq_true_iff] at haccepts
    exact haccepts.2
  rw [Port.lawful_iff]
  refine ⟨⟨?_, ⟨?_, ?_⟩, ⟨admitted, ?_⟩, ?_⟩, ?_⟩
  · rw [Port.window, horder, List.length_append]
    exact hlength
  · rw [horder, List.map_append, List.pairwise_append]
    refine ⟨hincreasing, List.pairwise_singleton _ _, fun a ha b hb => ?_⟩
    obtain ⟨e, he, rfl⟩ := List.mem_map.1 ha
    rw [List.mem_singleton.1 hb]
    exact hbelow e he
  · intro e he
    rw [hnext]
    rcases List.mem_append.1 (horder ▸ he) with he | he
    · exact Nat.lt_succ_of_lt (hbelow e he)
    · rw [List.mem_singleton.1 he]
      exact Nat.lt_succ_self _
  · rw [horder, hqueue, hsplit, List.map_append, List.append_assoc]
    rfl
  · intro e he hpending
    rw [hepoch']
    rcases List.mem_append.1 (horder ▸ he) with he | he
    · exact hepoch e he hpending
    · rw [List.mem_singleton.1 he]
  · intro e he
    rw [horder, List.head?_append] at he
    cases hfirst : q.order.head? with
    | none => rw [hfirst] at he; cases he; rfl
    | some f => rw [hfirst] at he; cases he; exact hhead e hfirst

theorem Port.needs_accept (h : q.inOrder) (r : Req) (id : Nat) : (q.accept r).Needs id ↔ q.Needs id := by
  obtain ⟨hqueue, horder, -⟩ := q.accept_spec r
  unfold Port.Needs
  rw [hqueue, horder]
  constructor
  · rintro ⟨e, he, hid, hunfinished, hall⟩
    rcases List.mem_append.1 he with he | he
    · exact ⟨e, he, hid, hunfinished, fun acc hacc => hall acc (List.mem_append_left _ hacc)⟩
    · rw [List.mem_singleton.1 he] at hid
      exact absurd hid (hall _ (List.mem_append_right _ (List.mem_singleton_self _)))
  · rintro ⟨e, he, hid, hunfinished, hall⟩
    refine ⟨e, List.mem_append_left _ he, hid, hunfinished, fun acc hacc => ?_⟩
    rcases List.mem_append.1 hacc with hacc | hacc
    · exact hall acc hacc
    · rw [List.mem_singleton.1 hacc]
      have hlt := h.2 e he
      rw [hid] at hlt
      exact Nat.ne_of_gt hlt

/-- Departure (R106, R107). -/
theorem Port.depart_lawful (h : q.lawful) : q.depart.lawful := by
  obtain ⟨⟨hwindow, horder, ⟨admitted, hsplit⟩, hepoch⟩, -⟩ := (q.lawful_iff).1 h
  rcases q.depart_cases with ⟨e, rest, r, hcons, hready, heq⟩ | ⟨-, heq⟩ <;> rw [heq]
  · have hsub : rest.Sublist q.order := hcons ▸ List.sublist_cons_self e rest
    refine Port.LawfulUnswept.sweep ⟨Nat.le_trans hsub.length_le hwindow,
      Port.LawfulUnswept.inOrder_of_sublist horder (hsub.map _), ?_, fun f hf => hepoch f (hsub.subset hf)⟩
    cases admitted with
    | nil =>
      have hpending : e.state = .pending := by
        have he : e ∈ q.queue.map fun acc => ({ acc := acc, state := .pending } : OrderEntry) := by
          rw [← List.nil_append (q.queue.map _), ← hsplit, hcons]
          exact List.mem_cons_self
        obtain ⟨acc, -, rfl⟩ := List.mem_map.1 he
        rfl
      rw [hpending] at hready
      cases hready
    | cons f admitted =>
      rw [hcons, List.cons_append] at hsplit
      exact ⟨admitted, (List.cons_inj_right e).1 (hsplit.trans (congrArg (· :: _) (List.cons.inj hsplit).1.symm))⟩
  · exact h

theorem Port.needs_depart (q : Port) (id : Nat) : q.depart.Needs id ↔ q.Needs id := by
  rcases q.depart_cases with ⟨e, rest, r, hcons, hready, heq⟩ | ⟨-, heq⟩ <;> rw [heq]
  rw [Port.needs_sweep]
  constructor
  · rintro ⟨f, hf, hneeds⟩
    exact ⟨f, by rw [hcons]; exact List.mem_cons_of_mem e hf, hneeds⟩
  · rintro ⟨f, hf, hid, hunfinished, hqueue⟩
    rw [hcons] at hf
    rcases List.mem_cons.1 hf with rfl | hf
    · rw [hready] at hunfinished
      cases hunfinished
    · exact ⟨f, hf, hid, hunfinished, hqueue⟩

/-- The front end after steps 1 to 4 of a port reset (R108), its finished heads still in place. -/
def Port.resetUnswept (q : Port) : Port :=
  { q with
    resetAsserted := true
    queue := []
    order := (q.order.filter fun e => !q.queue.any fun acc => acc.id == e.acc.id).map fun e => { e with state := e.state.reset }
    epoch := q.epoch + 1 }

theorem Port.reset_eq (q : Port) : q.reset = q.resetUnswept.sweep := rfl

theorem EntryState.reset_unfinished (e : EntryState) : e.reset.unfinished = e.unfinished := by cases e <;> rfl

theorem EntryState.reset_ne_pending (e : EntryState) : e.reset ≠ .pending := by cases e <;> simp [EntryState.reset]

theorem Port.mem_resetUnswept (q : Port) (e : OrderEntry) :
    e ∈ q.resetUnswept.order ↔ ∃ e0 ∈ q.order, (∀ acc ∈ q.queue, acc.id ≠ e0.acc.id) ∧ e = { e0 with state := e0.state.reset } := by
  simp only [Port.resetUnswept, List.mem_map, List.mem_filter, Bool.not_eq_true', List.any_eq_false, beq_iff_eq, and_assoc, eq_comm (a := e)]

/-- Port reset (R108): every admitted entry becomes DISCARD, and keeps the work it has. -/
theorem Port.reset_lawful (h : q.lawful) : q.reset.lawful := by
  obtain ⟨⟨hwindow, horder, -, -⟩, -⟩ := (q.lawful_iff).1 h
  have haccs : (q.resetUnswept.order.map (·.acc)).Sublist (q.order.map (·.acc)) := by
    simp only [Port.resetUnswept, List.map_map]
    exact List.filter_sublist.map _
  rw [Port.reset_eq]
  refine Port.LawfulUnswept.sweep ⟨?_, Port.LawfulUnswept.inOrder_of_sublist horder haccs, ⟨q.resetUnswept.order, ?_⟩, fun e he hpending => ?_⟩
  · refine Nat.le_trans ?_ hwindow
    simpa [Port.window] using haccs.length_le
  · exact (List.append_nil _).symm
  · obtain ⟨e0, -, -, rfl⟩ := (q.mem_resetUnswept e).1 he
    exact absurd hpending e0.state.reset_ne_pending

theorem Port.needs_reset (q : Port) (id : Nat) : q.reset.Needs id ↔ q.Needs id := by
  rw [Port.reset_eq, Port.needs_sweep]
  constructor
  · rintro ⟨e, he, hid, hunfinished, -⟩
    obtain ⟨e0, he0, hqueue, rfl⟩ := (q.mem_resetUnswept e).1 he
    exact ⟨e0, he0, hid, e0.state.reset_unfinished ▸ hunfinished, hid ▸ hqueue⟩
  · rintro ⟨e, he, hid, hunfinished, hqueue⟩
    refine ⟨_, (q.mem_resetUnswept _).2 ⟨e, he, hid.symm ▸ hqueue, rfl⟩, hid, ?_, fun acc hacc => nomatch hacc⟩
    exact e.state.reset_unfinished.trans hunfinished

/-! ### The requests of an order list stay those accepted -/

/-- The requests of `q'`'s order list are requests of `q`'s. -/
def Port.AccsWithin (q' q : Port) : Prop := ∀ e ∈ q'.order, ∃ f ∈ q.order, f.acc = e.acc

theorem Port.accsWithin_sweep (q : Port) : q.sweep.AccsWithin q :=
  fun e he => ⟨e, (List.dropWhile_sublist _).subset he, rfl⟩

theorem Port.AccsWithin.trans {q1 q2 q3 : Port} (h : q1.AccsWithin q2) (h' : q2.AccsWithin q3) : q1.AccsWithin q3 := by
  intro e he
  obtain ⟨f, hf, hfe⟩ := h e he
  obtain ⟨g, hg, hgf⟩ := h' f hf
  exact ⟨g, hg, hgf.trans hfe⟩

theorem Port.accsWithin_updEntry (q : Port) (id : Nat) (f : EntryState → EntryState) : (q.updEntry id f).AccsWithin q := by
  intro e he
  obtain ⟨e0, he0, rfl⟩ := (q.mem_updEntry id f e).1 he
  refine ⟨e0, he0, ?_⟩
  split <;> rfl

theorem Port.accsWithin_complete (q : Port) (id : Nat) (r : Response) : (q.complete id r).AccsWithin q :=
  (Port.accsWithin_sweep _).trans (q.accsWithin_updEntry id _)

theorem Port.accsWithin_finish (q : Port) (id : Nat) : (q.finish id).AccsWithin q :=
  (Port.accsWithin_sweep _).trans (q.accsWithin_updEntry id _)

theorem Port.accsWithin_reset (q : Port) : q.reset.AccsWithin q := by
  rw [Port.reset_eq]
  refine (Port.accsWithin_sweep _).trans fun e he => ?_
  obtain ⟨e0, he0, -, rfl⟩ := (q.mem_resetUnswept e).1 he
  exact ⟨e0, he0, rfl⟩

theorem Port.accsWithin_depart (q : Port) : q.depart.AccsWithin q := by
  rcases q.depart_cases with ⟨e, rest, r, hcons, -, heq⟩ | ⟨-, heq⟩ <;> rw [heq]
  · refine (Port.accsWithin_sweep _).trans fun f hf => ⟨f, ?_, rfl⟩
    rw [hcons]
    exact List.mem_cons_of_mem e hf
  · exact fun e he => ⟨e, he, rfl⟩

end

/-! ### The work in flight (R105, R117) -/

/-- The request reference of an outstanding transaction. -/
def Origin.ref? : Origin → Option (PortIx × Nat)
  | .agentRequest o id _ _ => some (portOf o.agent, id)
  | .tallyRead _ _ => none
  | .tallyWrite _ _ => none
  | .loaderRead => none

/-- The request reference of a tally. -/
def Tally.ref (t : Tally) : PortIx × Nat := (portOf t.agent, t.id)

/-- The request references of the outstanding list and of the tally slots. -/
def workOf (outstanding : List OutEntry) (slots : Four (Option Tally)) : List (PortIx × Nat) :=
  outstanding.filterMap (fun e => e.origin.ref?) ++ slots.toList.filterMap fun t => t.map Tally.ref

theorem State.workRefs_eq (s : State) : s.workRefs = workOf s.memory.outstanding s.tally.slots := rfl

theorem workOf_issue (outstanding : List OutEntry) (slots : Four (Option Tally)) (e : OutEntry) :
    (workOf (outstanding ++ [e]) slots).Perm (e.origin.ref?.toList ++ workOf outstanding slots) := by
  have hlast : [e].filterMap (fun e => e.origin.ref?) = e.origin.ref?.toList := by cases h : e.origin.ref? <;> simp [h]
  rw [workOf, workOf, List.filterMap_append, hlast, ← List.append_assoc e.origin.ref?.toList]
  exact (List.perm_append_comm).append_right _

theorem workOf_retire (e : OutEntry) (rest : List OutEntry) (slots : Four (Option Tally)) :
    workOf (e :: rest) slots = e.origin.ref?.toList ++ workOf rest slots := by
  cases h : e.origin.ref? <;> simp [workOf, h]

/-- A bank as a list, split at one of its four. -/
theorem Four.toList_split {α : Type} (f : Four α) (i : Fin 4) :
    ∃ before after, ∀ x, (f.set i x).toList = before ++ x :: after := by
  revert i
  rw [forall_fin_four]
  exact ⟨⟨[], [f.get 1, f.get 2, f.get 3], fun _ => rfl⟩, ⟨[f.get 0], [f.get 2, f.get 3], fun _ => rfl⟩,
    ⟨[f.get 0, f.get 1], [f.get 3], fun _ => rfl⟩, ⟨[f.get 0, f.get 1, f.get 2], [], fun _ => rfl⟩⟩

theorem workOf_slots (outstanding : List OutEntry) (slots : Four (Option Tally)) (i : SlotIx) :
    ∃ others, (∀ x, (workOf outstanding (slots.set i x)).Perm ((x.map Tally.ref).toList ++ others))
      ∧ (workOf outstanding slots).Perm (((slots.get i).map Tally.ref).toList ++ others) := by
  obtain ⟨before, after, hsplit⟩ := Four.toList_split slots i
  have hset (x : Option Tally) : (workOf outstanding (slots.set i x)).Perm ((x.map Tally.ref).toList
      ++ (outstanding.filterMap (fun e => e.origin.ref?) ++ (before.filterMap (fun t => t.map Tally.ref)
        ++ after.filterMap fun t => t.map Tally.ref))) := by
    rw [workOf, hsplit]
    cases x with
    | none => simp [List.filterMap_append]
    | some t =>
      simp only [List.filterMap_append, List.filterMap_cons, Option.map_some, Option.toList_some, List.singleton_append]
      rw [← List.append_assoc]
      refine List.perm_middle.trans ?_
      rw [List.append_assoc]
  refine ⟨_, hset, ?_⟩
  have hsame := hset (slots.get i)
  rwa [Four.set_get] at hsame

/-- The references name exactly the requests of which work is left, each once (R105). -/
def WorkAgrees (ports : Four Port) (refs : List (PortIx × Nat)) : Prop :=
  refs.Nodup ∧ ∀ p id, (p, id) ∈ refs ↔ (ports.get p).Needs id

theorem WorkAgrees.perm {ports : Four Port} {refs refs' : List (PortIx × Nat)} (h : WorkAgrees ports refs) (hperm : refs'.Perm refs) :
    WorkAgrees ports refs' :=
  ⟨hperm.nodup_iff.2 h.1, fun p id => hperm.mem_iff.trans (h.2 p id)⟩

/-- A front end changes and the work in it stays. -/
theorem WorkAgrees.set_port {ports : Four Port} {refs : List (PortIx × Nat)} (h : WorkAgrees ports refs) {p : PortIx} {q : Port}
    (hq : ∀ id, q.Needs id ↔ (ports.get p).Needs id) : WorkAgrees (ports.set p q) refs := by
  refine ⟨h.1, fun r id => (h.2 r id).trans ?_⟩
  rw [Four.get_set]
  split
  next hr => rw [hr]; exact (hq id).symm
  next => exact Iff.rfl

/-- A request is admitted and its work begins. -/
theorem WorkAgrees.start {ports : Four Port} {refs : List (PortIx × Nat)} (h : WorkAgrees ports refs) {p : PortIx} {q : Port} {id : Nat}
    (hnew : ¬(ports.get p).Needs id) (hq : ∀ id', q.Needs id' ↔ id' = id ∨ (ports.get p).Needs id') :
    WorkAgrees (ports.set p q) ((p, id) :: refs) := by
  refine ⟨List.nodup_cons.2 ⟨fun hmem => hnew ((h.2 p id).1 hmem), h.1⟩, fun r id' => ?_⟩
  rw [List.mem_cons, h.2 r id', Four.get_set]
  split
  next hr => rw [hr, hq, Prod.mk.injEq, eq_self, true_and]
  next hr => rw [Prod.mk.injEq]; exact or_iff_right fun heq => hr heq.1

/-- The work of a request ends. -/
theorem WorkAgrees.finish {ports : Four Port} {refs : List (PortIx × Nat)} {p : PortIx} {q : Port} {id : Nat}
    (h : WorkAgrees ports ((p, id) :: refs)) (hq : ∀ id', q.Needs id' ↔ id' ≠ id ∧ (ports.get p).Needs id') :
    WorkAgrees (ports.set p q) refs := by
  obtain ⟨hnot, hnodup⟩ := List.nodup_cons.1 h.1
  refine ⟨hnodup, fun r id' => ?_⟩
  have hold := h.2 r id'
  rw [List.mem_cons, Prod.mk.injEq] at hold
  rw [Four.get_set]
  split
  next hr =>
    subst hr
    rw [hq, ← hold]
    constructor
    · exact fun hmem => ⟨fun heq => hnot (heq ▸ hmem), .inr hmem⟩
    · rintro ⟨hne, heq | hmem⟩
      · exact absurd heq.2 hne
      · exact hmem
  next hr => rw [← hold]; exact (or_iff_right fun heq => hr heq.1).symm

/-! ### The law with its blocks named -/

/-- The law of responses (R105, R106): lawful front ends, work that agrees with them, and tallies with the epochs of their requests. -/
structure ResponsesLawful (ports : Four Port) (outstanding : List OutEntry) (slots : Four (Option Tally)) : Prop where
  fronts : ∀ p, (ports.get p).lawful
  work : WorkAgrees ports (workOf outstanding slots)
  epochs : ∀ i t, slots.get i = some t → ∀ e ∈ (ports.get (portOf t.agent)).order, e.acc.id = t.id → e.acc.epoch = t.epoch

theorem mem_workOf_of_slot {outstanding : List OutEntry} {slots : Four (Option Tally)} {i : SlotIx} {t : Tally}
    (ht : slots.get i = some t) : t.ref ∈ workOf outstanding slots :=
  List.mem_append_right _ (List.mem_filterMap.2 ⟨some t, (Four.mem_toList _ _).2 ⟨i, ht⟩, rfl⟩)

theorem State.responsesLawful_iff (s : State) :
    s.responsesLawful ↔ ResponsesLawful s.ports s.memory.outstanding s.tally.slots := by
  constructor
  · rintro ⟨hports, hnodup, hmem, hepochs⟩
    rw [State.workRefs_eq] at hnodup hmem
    refine ⟨hports, ⟨hnodup, hmem⟩, fun i t ht e he hid => ?_⟩
    obtain ⟨f, hf, hfid, hfepoch⟩ := hepochs i t ht
    obtain ⟨⟨-, horder, -, -⟩, -⟩ := (Port.lawful_iff _).1 (hports (portOf t.agent))
    rw [Port.eq_of_id_eq horder he hf (hid.trans hfid.symm), hfepoch]
  · rintro ⟨hports, ⟨hnodup, hmem⟩, hepochs⟩
    rw [← State.workRefs_eq] at hnodup hmem
    refine ⟨hports, hnodup, hmem, fun i t ht => ?_⟩
    have hwork : t.ref ∈ s.workRefs := s.workRefs_eq ▸ mem_workOf_of_slot ht
    obtain ⟨e, he, hid, -⟩ := (hmem _ _).1 hwork
    exact ⟨e, he, hid, hepochs i t ht e he hid⟩

section
variable {ports : Four Port} {outstanding : List OutEntry} {slots : Four (Option Tally)}

theorem ResponsesLawful.unswept (h : ResponsesLawful ports outstanding slots) (p : PortIx) : (ports.get p).LawfulUnswept :=
  ((Port.lawful_iff _).1 (h.fronts p)).1

/-- One front end changes: to a lawful one, with the requests it had, and with work that agrees. -/
theorem ResponsesLawful.set_port (h : ResponsesLawful ports outstanding slots) {p : PortIx} {q : Port} {outstanding' : List OutEntry}
    {slots' : Four (Option Tally)} (hlawful : q.lawful) (haccs : q.AccsWithin (ports.get p))
    (hslots : ∀ i t, slots'.get i = some t → ∃ j u, slots.get j = some u ∧ u.agent = t.agent ∧ u.id = t.id ∧ u.epoch = t.epoch)
    (hwork : WorkAgrees (ports.set p q) (workOf outstanding' slots')) : ResponsesLawful (ports.set p q) outstanding' slots' := by
  refine ⟨fun r => ?_, hwork, fun i t ht e he hid => ?_⟩
  · rw [Four.get_set]
    split
    · exact hlawful
    · exact h.fronts r
  · obtain ⟨j, u, hu, hagent, huid, huepoch⟩ := hslots i t ht
    rw [← huepoch]
    have hold := h.epochs j u hu
    rw [hagent, huid] at hold
    rw [Four.get_set] at he
    split at he
    next hr =>
      obtain ⟨f, hf, hfe⟩ := haccs e he
      rw [← hfe] at hid ⊢
      exact hold f (hr ▸ hf) hid
    next => exact hold e he hid

theorem slots_same (i : SlotIx) (t : Tally) (ht : slots.get i = some t) :
    ∃ j u, slots.get j = some u ∧ u.agent = t.agent ∧ u.id = t.id ∧ u.epoch = t.epoch := ⟨i, t, ht, rfl, rfl, rfl⟩

/-- The slots' tallies when one slot changes and keeps the request of its tally, or is freed. -/
theorem slots_set {i : SlotIx} {x : Option Tally}
    (hx : ∀ t, x = some t → ∃ u, slots.get i = some u ∧ u.agent = t.agent ∧ u.id = t.id ∧ u.epoch = t.epoch) (j : SlotIx) (t : Tally)
    (ht : (slots.set i x).get j = some t) : ∃ k u, slots.get k = some u ∧ u.agent = t.agent ∧ u.id = t.id ∧ u.epoch = t.epoch := by
  rw [Four.get_set] at ht
  split at ht
  next => exact ⟨i, hx t ht⟩
  next => exact ⟨j, t, ht, rfl, rfl, rfl⟩

/-- The halves of tallies and the loader's reads come and go without touching the work of requests, and so do changes of a tally in its
slot. -/
theorem ResponsesLawful.of_perm (h : ResponsesLawful ports outstanding slots) {outstanding' : List OutEntry}
    {slots' : Four (Option Tally)} (hperm : (workOf outstanding' slots').Perm (workOf outstanding slots))
    (hslots : ∀ i t, slots'.get i = some t → ∃ j u, slots.get j = some u ∧ u.agent = t.agent ∧ u.id = t.id ∧ u.epoch = t.epoch) :
    ResponsesLawful ports outstanding' slots' := by
  refine ⟨h.fronts, h.work.perm hperm, fun i t ht e he hid => ?_⟩
  obtain ⟨j, u, hu, hagent, huid, huepoch⟩ := hslots i t ht
  have hold := h.epochs j u hu
  rw [hagent, huid, huepoch] at hold
  exact hold e he hid

theorem workOf_set_perm (outstanding : List OutEntry) {i : SlotIx} {t u : Tally} (ht : slots.get i = some t) (hagent : u.agent = t.agent)
    (hid : u.id = t.id) : (workOf outstanding (slots.set i (some u))).Perm (workOf outstanding slots) := by
  obtain ⟨others, hset, hsame⟩ := workOf_slots outstanding slots i
  have href : u.ref = t.ref := by rw [Tally.ref, hagent, hid, Tally.ref]
  rw [ht, Option.map_some, ← href] at hsame
  exact (hset (some u)).trans hsame.symm

/-- A granted request leaves its queue: it has the work that is issued with it (R113, R117). -/
theorem ResponsesLawful.start (h : ResponsesLawful ports outstanding slots) {p : PortIx} {acc : Accepted} {rest : List Accepted}
    (hqueue : (ports.get p).queue = acc :: rest) :
    WorkAgrees (ports.set p { ports.get p with queue := (ports.get p).queue.tail }) ((p, acc.id) :: workOf outstanding slots)
      ∧ (∀ r, ((ports.set p { ports.get p with queue := (ports.get p).queue.tail }).get r).lawful) := by
  have hport := h.unswept p
  refine ⟨h.work.start (Port.not_needs_of_queue (acc := acc) (by simp [hqueue])) (hport.needs_dequeue hqueue), fun r => ?_⟩
  rw [Four.get_set]
  split
  next => exact (Port.lawful_iff _).2 ⟨hport.dequeue hqueue, ((Port.lawful_iff _).1 (h.fronts p)).2⟩
  next => exact h.fronts r

/-- The work of a request ends, and its entry with it (R105). -/
theorem ResponsesLawful.finish (h : ResponsesLawful ports outstanding slots) {p : PortIx} {id : Nat} {q : Port}
    {outstanding' : List OutEntry} {slots' : Four (Option Tally)}
    (hperm : (workOf outstanding slots).Perm ((p, id) :: workOf outstanding' slots')) (hlawful : q.lawful)
    (haccs : q.AccsWithin (ports.get p)) (hq : ∀ id', q.Needs id' ↔ id' ≠ id ∧ (ports.get p).Needs id')
    (hslots : ∀ i t, slots'.get i = some t → ∃ j u, slots.get j = some u ∧ u.agent = t.agent ∧ u.id = t.id ∧ u.epoch = t.epoch) :
    ResponsesLawful (ports.set p q) outstanding' slots' :=
  h.set_port hlawful haccs hslots ((h.work.perm hperm.symm).finish hq)

end

/-! ### The moves -/

/-- The agent of a granted request is one of its port's (R2). -/
theorem State.Offers.portOf_agent {s : State} {g : Grant} (h : s.Offers g) : portOf g.cls.agent = g.port := by
  rw [h.classified]
  exact portOf_agentOf g.port g.acc.req.tag

theorem ResponsesLawful.accept {s : State} (h : ResponsesLawful s.ports s.memory.outstanding s.tally.slots) {p : PortIx}
    (haccepts : (s.ports.get p).accepts = true) (r : Req) :
    ResponsesLawful (s.ports.set p ((s.ports.get p).accept r)) s.memory.outstanding s.tally.slots := by
  have horder := (h.unswept p).inOrder
  refine ⟨fun r' => ?_, h.work.set_port (Port.needs_accept horder r), fun i t ht e he hid => ?_⟩
  · rw [Four.get_set]
    split
    · exact Port.accept_lawful (h.fronts p) haccepts r
    · exact h.fronts r'
  · rw [Four.get_set] at he
    split at he
    next hr =>
      obtain ⟨-, horder', -⟩ := (s.ports.get p).accept_spec r
      rcases List.mem_append.1 (horder' ▸ he) with he | he
      · exact h.epochs i t ht e (hr ▸ he) hid
      · obtain ⟨f, hf, hfid, -⟩ := (h.work.2 _ _).1 (mem_workOf_of_slot ht)
        rw [hr] at hf
        have hlt := horder.2 f hf
        rw [List.mem_singleton.1 he] at hid
        rw [hfid, ← hid] at hlt
        exact absurd hlt (Nat.lt_irrefl _)
    next => exact h.epochs i t ht e he hid

theorem ResponsesLawful.answer {s : State} (h : ResponsesLawful s.ports s.memory.outstanding s.tally.slots) {g : Grant}
    (hoffers : s.Offers g) (k : Cause) :
    ResponsesLawful (s.ports.set g.port ((s.ports.get g.port).answeredHead g.acc.id k)) s.memory.outstanding s.tally.slots := by
  obtain ⟨rest, hqueue⟩ := hoffers.queued
  have hport := h.unswept g.port
  have hnot : ¬(s.ports.get g.port).Needs g.acc.id := Port.not_needs_of_queue (by simp [hqueue])
  refine h.set_port (Port.complete_lawful (hport.dequeue hqueue) ?_ _) (Port.accsWithin_complete _ _ _) slots_same
    (h.work.set_port fun id => ?_)
  · intro acc hacc
    exact hport.head_ne hqueue acc (by simpa [hqueue] using hacc)
  · rw [Port.answeredHead, Port.needs_complete, hport.needs_dequeue hqueue]
    constructor
    · rintro ⟨hne, heq | hneeds⟩
      · exact absurd heq hne
      · exact hneeds
    · exact fun hneeds => ⟨fun heq => hnot (heq ▸ hneeds), .inr hneeds⟩

theorem ResponsesLawful.issueRequest {s : State} (h : ResponsesLawful s.ports s.memory.outstanding s.tally.slots) {g : Grant}
    (hoffers : s.Offers g) {e : OutEntry} (he : e.origin.ref? = some (g.port, g.acc.id)) :
    ResponsesLawful (s.granted g) (s.memory.outstanding ++ [e]) s.tally.slots := by
  obtain ⟨rest, hqueue⟩ := hoffers.queued
  obtain ⟨hwork, -⟩ := h.start hqueue
  have hperm := workOf_issue s.memory.outstanding s.tally.slots e
  rw [he] at hperm
  refine h.set_port ?_ (fun e he => ⟨e, he, rfl⟩) slots_same (hwork.perm hperm)
  exact (Port.lawful_iff _).2 ⟨(h.unswept g.port).dequeue hqueue, ((Port.lawful_iff _).1 (h.fronts g.port)).2⟩

theorem ResponsesLawful.takeTally {s : State} (h : ResponsesLawful s.ports s.memory.outstanding s.tally.slots) {g : Grant}
    (hoffers : s.Offers g) {e : OutEntry} (he : e.origin.ref? = none) {i : SlotIx} (hfree : s.tally.slots.get i = none) {t : Tally}
    (hagent : t.agent = g.cls.agent) (hid : t.id = g.acc.id) (hepoch : t.epoch = g.acc.epoch) :
    ResponsesLawful (s.granted g) (s.memory.outstanding ++ [e]) (s.tally.slots.set i (some t)) := by
  obtain ⟨rest, hqueue⟩ := hoffers.queued
  obtain ⟨hwork, hports⟩ := h.start hqueue
  have href : t.ref = (g.port, g.acc.id) := by rw [Tally.ref, hagent, hid, hoffers.portOf_agent]
  obtain ⟨others, hset, hold⟩ := workOf_slots s.memory.outstanding s.tally.slots i
  have hperm : (workOf (s.memory.outstanding ++ [e]) (s.tally.slots.set i (some t))).Perm
      ((g.port, g.acc.id) :: workOf s.memory.outstanding s.tally.slots) := by
    have hissue := workOf_issue s.memory.outstanding (s.tally.slots.set i (some t)) e
    have hnew := hset (some t)
    rw [he, Option.toList_none, List.nil_append] at hissue
    rw [Option.map_some, href] at hnew
    rw [hfree] at hold
    exact hissue.trans (hnew.trans (hold.symm.cons _))
  refine ⟨hports, hwork.perm hperm, fun j u hu f hf hfid => ?_⟩
  have hf' : f ∈ (s.ports.get (portOf u.agent)).order := by
    rw [State.granted, Four.get_set] at hf
    split at hf
    next hr => rw [hr]; exact hf
    next => exact hf
  rw [Four.get_set] at hu
  split at hu
  next =>
    cases hu
    rw [hagent, hoffers.portOf_agent] at hf'
    have hentry := (h.unswept g.port).mem_order_of_queue (acc := g.acc) (by simp [hqueue])
    rw [Port.eq_of_id_eq (h.unswept g.port).inOrder hf' hentry (hfid.trans hid), hepoch]
  next => exact h.epochs j u hu f hf' hfid

theorem ResponsesLawful.retireRequest {s : State} (h : ResponsesLawful s.ports s.memory.outstanding s.tally.slots) {e : OutEntry}
    {rest : List OutEntry} (he : s.memory.outstanding = e :: rest) {p : PortIx} {id : Nat} (href : e.origin.ref? = some (p, id))
    (r : Response) :
    ResponsesLawful (s.ports.set p ((s.ports.get p).complete id r)) rest s.tally.slots := by
  have hrefs := workOf_retire e rest s.tally.slots
  rw [href] at hrefs
  obtain ⟨f, hf, hfid, -, hqueue⟩ := (h.work.2 p id).1 (by rw [he, hrefs]; simp)
  refine h.finish (by rw [he, hrefs]; rfl) (Port.complete_lawful (h.unswept p) hqueue r) (Port.accsWithin_complete _ _ _)
    (fun id' => Port.needs_complete _ id r id') slots_same

theorem ResponsesLawful.endTally {s : State} (h : ResponsesLawful s.ports s.memory.outstanding s.tally.slots) {e : OutEntry}
    {rest : List OutEntry} (he : s.memory.outstanding = e :: rest) (href : e.origin.ref? = none) {i : SlotIx} {t : Tally}
    (ht : s.tally.slots.get i = some t) (r : Response) :
    ResponsesLawful
      (s.ports.set (portOf t.agent)
        (if t.epoch = (s.ports.get (portOf t.agent)).epoch then (s.ports.get (portOf t.agent)).complete t.id r
          else (s.ports.get (portOf t.agent)).finish t.id))
      rest (s.tally.slots.set i none) := by
  have hport := h.unswept (portOf t.agent)
  obtain ⟨f, hf, hfid, -, hqueue⟩ := (h.work.2 _ _).1 (mem_workOf_of_slot ht)
  have hperm : (workOf s.memory.outstanding s.tally.slots).Perm (t.ref :: workOf rest (s.tally.slots.set i none)) := by
    obtain ⟨others, hset, hold⟩ := workOf_slots rest s.tally.slots i
    rw [he, workOf_retire, href]
    rw [ht] at hold
    exact hold.trans ((hset none).symm.cons _)
  have hslots := slots_set (slots := s.tally.slots) (i := i) (x := none) fun _ hx => nomatch hx
  by_cases hepoch : t.epoch = (s.ports.get (portOf t.agent)).epoch
  · rw [if_pos hepoch]
    exact h.finish hperm (Port.complete_lawful hport hqueue r) (Port.accsWithin_complete _ _ _)
      (fun id' => Port.needs_complete _ t.id r id') hslots
  · rw [if_neg hepoch]
    have hpending : ∀ x ∈ (s.ports.get (portOf t.agent)).order, x.acc.id = t.id → x.state ≠ .pending := by
      intro x hx hxid hpending
      exact hepoch ((h.epochs i t ht x hx hxid).symm.trans (hport.epoch x hx hpending))
    exact h.finish hperm (Port.finish_lawful hport hqueue hpending) (Port.accsWithin_finish _ _)
      (fun id' => Port.needs_finish hpending id') hslots

theorem ResponsesLawful.issueWriteHalf {s : State} (h : ResponsesLawful s.ports s.memory.outstanding s.tally.slots) :
    ResponsesLawful s.issueWriteHalf.ports s.issueWriteHalf.memory.outstanding s.issueWriteHalf.tally.slots := by
  rcases s.issueWriteHalf_cases with ⟨-, heq⟩ | ⟨i, rest, t, -, ht, heq⟩ | ⟨i, rest, -, -, heq⟩ <;> rw [heq]
  · exact h
  · refine h.of_perm ((workOf_issue _ _ _).trans ?_) (slots_set fun u hu => ?_)
    · exact workOf_set_perm s.memory.outstanding ht rfl rfl
    · cases hu
      exact ⟨t, ht, rfl, rfl, rfl⟩
  · exact h

theorem ResponsesLawful.of_empty {ports : Four Port} {slots : Four (Option Tally)} (hports : ∀ p, (ports.get p).lawful)
    (horder : ∀ p, (ports.get p).order = []) (hslots : ∀ i, slots.get i = none) : ResponsesLawful ports [] slots := by
  have hwork : workOf [] slots = [] := by
    rw [workOf, List.filterMap_nil, List.nil_append, List.filterMap_eq_nil_iff]
    intro t ht
    obtain ⟨i, rfl⟩ := (Four.mem_toList _ _).1 ht
    rw [hslots]
    rfl
  refine ⟨hports, ⟨by rw [hwork]; exact List.nodup_nil, fun p id => ?_⟩, fun i t ht => by rw [hslots] at ht; cases ht⟩
  rw [hwork]
  refine iff_of_false List.not_mem_nil ?_
  rintro ⟨e, he, -⟩
  rw [horder] at he
  cases he

theorem Port.atPowerOn_lawful (asserted : Bool) : (Port.atPowerOn asserted).lawful :=
  ⟨Nat.zero_le _, ⟨List.Pairwise.nil, by simp [Port.atPowerOn, Port.powerOn]⟩, ⟨[], rfl⟩, by simp [Port.atPowerOn, Port.powerOn],
    by simp [Port.atPowerOn, Port.powerOn]⟩

theorem State.Move.keeps_responsesLawful {c : Instr} {s t : State} (hmove : State.Move c s t)
    (h : ResponsesLawful s.ports s.memory.outstanding s.tally.slots) :
    ResponsesLawful t.ports t.memory.outstanding t.tally.slots := by
  have hdrop {e : OutEntry} {rest : List OutEntry} (he : s.memory.outstanding = e :: rest) :
      (s.memory.retire s.loader.memoryTimeout).outstanding = rest := by simp [MemoryPort.retire, he]
  cases hmove with
  | powerOn _ _ prst _ _ hc ht =>
    subst hc
    cases ht
    refine .of_empty (fun p => ?_) (fun p => ?_) fun i => Four.get_all none i <;> revert p <;> rw [forall_fin_four]
    · exact ⟨Port.atPowerOn_lawful _, Port.atPowerOn_lawful _, Port.atPowerOn_lawful _, Port.atPowerOn_lawful _⟩
    · exact ⟨rfl, rfl, rfl, rfl⟩
  | portReset p =>
    exact h.set_port (Port.reset_lawful (h.fronts p)) (Port.accsWithin_reset _) slots_same (h.work.set_port (Port.needs_reset _))
  | reopen p =>
    exact h.set_port (q := { s.ports.get p with resetAsserted := false }) (h.fronts p) (fun e he => ⟨e, he, rfl⟩) slots_same
      (h.work.set_port fun _ => Iff.rfl)
  | accept p r haccepts => exact h.accept haccepts r
  | depart p =>
    exact h.set_port (Port.depart_lawful (h.fronts p)) (Port.accsWithin_depart _) slots_same (h.work.set_port (Port.needs_depart _))
  | answer g k hoffers => exact h.answer hoffers k
  | issueRequest g hoffers =>
    exact h.issueRequest hoffers (by simp only [Origin.ref?, Grant.owner, hoffers.portOf_agent])
  | takeTally g i u hoffers _ _ _ _ hfree hu =>
    subst hu
    exact h.takeTally hoffers rfl hfree rfl rfl rfl
  | issueWriteHalf => exact h.issueWriteHalf
  | issueLoaderRead => exact h.of_perm (workOf_issue _ _ _) slots_same
  | retireRequest e rest o id d trigger r he horigin =>
    rw [hdrop he]
    exact h.retireRequest he (by rw [horigin]; rfl) r
  | retireReadHalf e rest o i u v clamped he horigin hu =>
    rw [hdrop he]
    have hsame : workOf s.memory.outstanding s.tally.slots = workOf rest s.tally.slots := by
      rw [he, workOf_retire, horigin]
      rfl
    refine h.of_perm ?_ (slots_set fun w hw => ?_)
    · rw [hsame]
      exact workOf_set_perm rest hu rfl rfl
    · cases hw
      exact ⟨u, hu, rfl, rfl, rfl⟩
  | endTally e rest o i u r he horigin hu =>
    rw [hdrop he]
    exact h.endTally he (by rcases horigin with horigin | horigin <;> rw [horigin] <;> rfl) hu r
  | retireOther e rest he horigin =>
    rw [hdrop he]
    refine h.of_perm ?_ slots_same
    have href : e.origin.ref? = none := by
      rcases horigin with horigin | ⟨o, i, horigin | horigin, -⟩ <;> rw [horigin] <;> rfl
    rw [he, workOf_retire, href]
    exact List.Perm.refl _
  | _ => exact h

/-- Settles O10: every move keeps the law. -/
theorem responsesLawKept : Obligations.ResponsesLawKept := by
  unfold Obligations.ResponsesLawKept
  intro s t hlawful hstep
  rw [State.responsesLawful_iff] at hlawful ⊢
  exact keep_of_step (P := fun s => ResponsesLawful s.ports s.memory.outstanding s.tally.slots) (fun _ _ h => h)
    (fun _ _ _ hmove => hmove.keeps_responsesLawful) hlawful hstep

end Sys2Proof.Machine
end

section
-- One theorem at a time: side by side the proofs ask for more threads than the sandbox grants.
set_option Elab.async false

/-! PROOFS. The queue of commands, the front ends and the arbiter (chapter 6): steps, acceptance, departure and resets; READY responses;
the round-robin grant; O1, O3, O5, O7, O8, O9, O11, O12, O13. -/
namespace Sys2Proof.Machine

/-- Settles O1: both clauses are the two branches of a step. -/
theorem stepTakesFrontCommand : Obligations.StepTakesFrontCommand := by
  unfold Obligations.StepTakesFrontCommand
  constructor
  · intro c rest s hpending
    rw [step, hpending]
  · intro s hpending
    rw [step, hpending]

/-- The granule of the window that each strap selects (R128). -/
theorem policyGranule_getElem? (pbase : Fin 4) :
    ([0x0F, 0x7F, 0x1FF, 0xFFFFF] : List Nat)[pbase.val]? = some (granuleOf (Config.policyBase pbase).toNat) := by
  revert pbase
  decide

theorem State.reset_attnLow : State.reset.attnLow = false := by decide

/-- Settles O3: the values stand in the power-on state, and the window of each strap in a table. -/
theorem powerOnResetValues : Obligations.PowerOnResetValues := by
  unfold Obligations.PowerOnResetValues
  intro pbase ownp prst csLow s
  refine ⟨_, rfl, ?_, rfl, rfl, rfl, fun i => Four.get_all _ i, fun a => ?_, fun i => Four.get_all _ i, rfl, rfl, rfl, rfl, rfl, rfl,
    ?_, ?_, rfl, rfl, rfl, rfl, rfl, rfl, rfl, rfl, rfl, rfl, rfl, rfl, rfl, rfl, rfl, rfl, rfl, State.reset_attnLow, rfl⟩
  · rw [forall_fin_four]
    exact ⟨⟨rfl, rfl, rfl, rfl⟩, ⟨rfl, rfl, rfl, rfl⟩, ⟨rfl, rfl, rfl, rfl⟩, ⟨rfl, rfl, rfl, rfl⟩⟩
  · simp only [Monitor.ctx, State.reset, Four.get_all]
    rfl
  · exact Config.policyBase_getElem? pbase
  · exact policyGranule_getElem? pbase

/-- Settles O7: both commands by their equations. -/
theorem resetLineHeldAndReleased : Obligations.ResetLineHeldAndReleased := by
  unfold Obligations.ResetLineHeldAndReleased
  intro p s
  refine ⟨fun hheld => ?_, rfl⟩
  change execPortReset p s = _
  rw [execPortReset, if_pos hheld]

/-! ### Acceptance and departure (R103, R106, R107) -/

theorem Port.accepts_iff (q : Port) : q.accepts = true ↔ q.resetAsserted = false ∧ q.order.length < 8 := by
  rw [Port.accepts, Bool.and_eq_true, Bool.not_eq_true', decide_eq_true_iff]
  rfl

theorem EntryState.isFinished_iff (e : EntryState) : e.isFinished = true ↔ e = .discard true := by
  cases e <;> simp [EntryState.isFinished]

theorem EntryState.isFinished_eq (e : EntryState) : e.isFinished = (e == .discard true) := by
  rw [Bool.eq_iff_iff, e.isFinished_iff, beq_iff_eq]

theorem Port.depart_of_ready {q : Port} {e : OrderEntry} {rest : List OrderEntry} {r : Response} (horder : q.order = e :: rest)
    (hready : e.state = .ready r) :
    q.depart = { q with order := rest.dropWhile (fun x => x.state == .discard true), taken := q.taken ++ [r] } := by
  rw [Port.depart, horder]
  simp only [hready, Port.sweep, EntryState.isFinished_eq]

theorem Port.depart_of_not_ready {q : Port} (h : ∀ e r, q.order.head? = some e → e.state ≠ .ready r) : q.depart = q := by
  rcases q.depart_cases with ⟨e, rest, r, horder, hready, -⟩ | ⟨-, hsame⟩
  · exact absurd hready (h e r (by rw [horder]; rfl))
  · exact hsame

/-- Settles O8: acceptance by its condition; a departure by the state of the head. -/
theorem acceptanceAndDeparture : Obligations.AcceptanceAndDeparture := by
  unfold Obligations.AcceptanceAndDeparture
  constructor
  · rintro p req s q rfl
    change execAcceptance p req s = _
    rw [execAcceptance]
    simp only [Port.accepts_iff]
    rfl
  · rintro p s q rfl
    constructor
    · intro e rest r horder hready
      change Host.Outcome.next (s.updPort p Port.depart) = _
      rw [State.updPort, Port.depart_of_ready horder hready]
    · intro h
      change Host.Outcome.next (s.updPort p Port.depart) = _
      rw [State.updPort, Port.depart_of_not_ready h, Four.set_get]

/-! ### READY responses (R105, R106) -/

section
variable {q : Port} {e : OrderEntry} {r : Response}

theorem Port.ready_mem_sweep (he : e ∈ q.order) (hready : e.state = .ready r) : e ∈ q.sweep.order :=
  Port.mem_sweep_of_unfinished he (by rw [hready]; rfl)

/-- A change that keeps READY entries keeps this one. -/
theorem Port.ready_mem_updEntry (he : e ∈ q.order) (id : Nat) {f : EntryState → EntryState} (hf : f e.state = e.state) :
    e ∈ (q.updEntry id f).order := by
  refine (q.mem_updEntry id f e).2 ⟨e, he, ?_⟩
  rw [hf]
  split <;> rfl

theorem Port.ready_mem_complete (he : e ∈ q.order) (hready : e.state = .ready r) (id : Nat) (r' : Response) :
    e ∈ (q.complete id r').order :=
  Port.ready_mem_sweep (Port.ready_mem_updEntry he id (by rw [hready]; rfl)) hready

theorem Port.ready_mem_finish (he : e ∈ q.order) (hready : e.state = .ready r) (id : Nat) : e ∈ (q.finish id).order :=
  Port.ready_mem_sweep (Port.ready_mem_updEntry he id (by rw [hready]; rfl)) hready

end

/-- A change of one front end that keeps an entry of it keeps the entries of every front end. -/
theorem Four.mem_order_set {ports : Four Port} {p p' : PortIx} {q : Port} {e : OrderEntry} (he : e ∈ (ports.get p).order)
    (hq : p' = p → e ∈ q.order) : e ∈ ((ports.set p' q).get p).order := by
  rw [Four.get_set]
  split
  next h => exact hq h.symm
  next => exact he

theorem State.Move.keeps_ready {c : Instr} {s t : State} (hmove : State.Move c s t) {p : PortIx} {e : OrderEntry} {r : Response}
    (hreset : ∀ pbase ownp prst csLow, c ≠ .powerOnReset pbase ownp prst csLow) (hport : c ≠ .portReset p)
    (hdepart : c ≠ .responseDeparture p) (he : e ∈ (s.ports.get p).order) (hready : e.state = .ready r) :
    e ∈ (t.ports.get p).order := by
  cases hmove with
  | powerOn pbase ownp prst csLow _ hc => exact absurd hc (hreset pbase ownp prst csLow)
  | portReset p' hc =>
    refine Four.mem_order_set he fun hp => ?_
    exact absurd (hp ▸ hc) hport
  | depart p' hc =>
    refine Four.mem_order_set he fun hp => ?_
    exact absurd (hp ▸ hc) hdepart
  | reopen p' => exact Four.mem_order_set he fun hp => by rw [hp]; exact he
  | accept p' => exact Four.mem_order_set he fun hp => by rw [hp]; exact List.mem_append_left _ he
  | issueRequest g => exact Four.mem_order_set he fun hp => by rw [hp]; exact he
  | takeTally g => exact Four.mem_order_set he fun hp => by rw [hp]; exact he
  | answer g k => exact Four.mem_order_set he fun hp => Port.ready_mem_complete (by rw [hp]; exact he) hready _ _
  | retireRequest e' rest o id => exact Four.mem_order_set he fun hp => Port.ready_mem_complete (by rw [hp]; exact he) hready _ _
  | endTally e' rest o i t =>
    refine Four.mem_order_set he fun hp => ?_
    rw [hp]
    split
    · exact Port.ready_mem_complete he hready _ _
    · exact Port.ready_mem_finish he hready _
  | issueWriteHalf => rwa [State.issueWriteHalf_ports]
  | _ => exact he

/-- Settles O9: a departure takes the head alone, and no other move but a reset's changes a READY entry. -/
theorem readyResponseIsFinal : Obligations.ReadyResponseIsFinal := by
  unfold Obligations.ReadyResponseIsFinal
  intro c s t p e r hexec he hready
  by_cases hreset : ∃ pbase ownp prst csLow, c = .powerOnReset pbase ownp prst csLow
  · exact .inr (.inr (.inr hreset))
  by_cases hport : c = .portReset p
  · exact .inr (.inr (.inl hport))
  by_cases hdepart : c = .responseDeparture p
  · subst hdepart
    cases hexec
    change e ∈ ((s.ports.set p (s.ports.get p).depart).get p).order
      ∨ _ ∧ ((s.ports.set p (s.ports.get p).depart).get p).taken = _ ∨ _
    rw [Four.get_set_self]
    rcases (s.ports.get p).depart_cases with ⟨f, rest, r', horder, hready', heq⟩ | ⟨-, heq⟩
    · rw [horder] at he
      rcases List.mem_cons.1 he with rfl | he
      · rw [hready] at hready'
        cases hready'
        exact .inr (.inl ⟨by rw [horder]; rfl, by rw [heq]; rfl⟩)
      · rw [heq]
        exact .inl (Port.ready_mem_sweep he hready)
    · rw [heq]
      exact .inl he
  · refine .inl ((moves_of_exec hexec).keep (P := fun x => e ∈ (x.ports.get p).order) (fun x y hmove hx => ?_) he)
    exact hmove.keeps_ready (fun pbase ownp prst csLow hc => hreset ⟨pbase, ownp, prst, csLow, hc⟩) hport hdepart hx hready

/-! ### The port reset of a front end (R108, R111) -/

theorem exec_portReset {s : State} {p : PortIx} (h : (s.ports.get p).resetAsserted = false) :
    exec (.portReset p) s = .next (s.portReset p) := by
  change execPortReset p s = _
  rw [execPortReset, if_neg (by simp [h])]

theorem EntryState.reset_eq (e : EntryState) : e.reset = .discard e.markAtReset := by cases e <;> rfl

/-- The admitted entries are those that a port reset turns into DISCARD (R108, steps 2 and 3). -/
theorem Port.resetUnswept_order {q : Port} {admitted : List OrderEntry} (horder : q.inOrder)
    (hsplit : q.order = admitted ++ q.queue.map fun acc => { acc := acc, state := .pending }) :
    q.resetUnswept.order = admitted.map fun e => { acc := e.acc, state := .discard e.state.markAtReset } := by
  have hnodup : (q.order.map (·.acc.id)).Nodup := horder.1.imp fun hlt => Nat.ne_of_lt hlt
  rw [hsplit, List.map_append, List.nodup_append] at hnodup
  have hadmitted : admitted.filter (fun e => !q.queue.any fun acc => acc.id == e.acc.id) = admitted := by
    rw [List.filter_eq_self]
    intro e he
    rw [Bool.not_eq_true', List.any_eq_false]
    intro acc hacc
    rw [beq_iff_eq]
    refine fun hid => hnodup.2.2 e.acc.id (List.mem_map_of_mem he) acc.id ?_ hid.symm
    exact List.mem_map.2 ⟨_, List.mem_map_of_mem hacc, rfl⟩
  have hqueue : (q.queue.map fun acc => ({ acc := acc, state := .pending } : OrderEntry)).filter
      (fun e => !q.queue.any fun acc => acc.id == e.acc.id) = [] := by
    rw [List.filter_eq_nil_iff]
    intro e he
    obtain ⟨acc, hacc, rfl⟩ := List.mem_map.1 he
    rw [Bool.not_eq_true, Bool.not_eq_false', List.any_eq_true]
    exact ⟨acc, hacc, beq_self_eq_true acc.id⟩
  rw [Port.resetUnswept]
  dsimp only
  rw [hsplit, List.filter_append, hadmitted, hqueue, List.append_nil]
  simp only [EntryState.reset_eq]

/-- Settles O5: the admitted entries are what the reset turns into DISCARD, and the finished heads of them leave. -/
theorem portResetFrontEnd : Obligations.PortResetFrontEnd := by
  unfold Obligations.PortResetFrontEnd
  intro p s admitted hasserted hsplit horder
  have hreset := Port.resetUnswept_order horder hsplit
  have hports : (s.portReset p).ports = s.ports.set p (s.ports.get p).reset := by simp [State.portReset, State.updPort]
  refine ⟨s.portReset p, (s.ports.get p).resetUnswept.order.takeWhile (fun e => e.state.isFinished), exec_portReset hasserted, ?_⟩
  rw [hports, Four.get_set_self]
  refine ⟨rfl, rfl, rfl, rfl, ?_, fun e he => ?_, fun e he => ?_, fun r hr => Four.get_set_ne _ _ hr, ?_, ?_, ?_, ?_, ?_, ?_⟩
  · rw [← hreset, Port.reset_eq, Port.sweep_order, List.takeWhile_append_dropWhile]
  · exact (EntryState.isFinished_iff _).1 (List.all_eq_true.1 List.all_takeWhile e he)
  · have hhead := Port.sweep_head _ e he
    have hmem : e ∈ (s.ports.get p).resetUnswept.order := (List.dropWhile_sublist _).subset (List.mem_of_head? he)
    rw [hreset] at hmem
    obtain ⟨e0, -, rfl⟩ := List.mem_map.1 hmem
    simpa [EntryState.isFinished] using hhead
  all_goals simp [State.portReset, State.updPort]

/-! ### HALT, RESUME and the pause (R115, R170) -/

theorem State.candidate_of_not_admits {s : State} (h : s.admits = false) (p : PortIx) : s.candidate p = none := by
  unfold State.candidate
  split
  · rfl
  · simp [h]

theorem exec_admission_of_no_candidate {s : State} (h : ∀ p, s.candidate p = none) : exec .admission s = .next s := by
  change execAdmission s = _
  have hwinner : s.winner = none := by simp [State.winner, h]
  rw [execAdmission, hwinner]

/-- Settles O11: the pause is a field of the link, and with it on no port has a candidate. -/
theorem pauseStopsAdmission : Obligations.PauseStopsAdmission := by
  unfold Obligations.PauseStopsAdmission
  refine ⟨fun s hframe => ⟨?_, ?_⟩, fun s hstopped => exec_admission_of_no_candidate (s.candidate_of_not_admits ?_)⟩
  · change Host.Outcome.next (s.atPointOfEffect _) = _
    rw [State.atPointOfEffect_of_ne hframe]
    rfl
  · change Host.Outcome.next (s.atPointOfEffect _) = _
    rw [State.atPointOfEffect_of_ne hframe]
    rfl
  · rw [← Bool.not_eq_true, s.admits_iff]
    rintro ⟨hrunning, hpause⟩
    rcases hstopped with h | h
    · rw [h] at hpause; cases hpause
    · exact h hrunning

/-! ### The round-robin grant (R112, R113) -/

theorem TallyEngine.freeSlot_isSome_iff (e : TallyEngine) : e.freeSlot.isSome = true ↔ ∃ i, e.slots.get i = none := by
  rw [TallyEngine.freeSlot, List.find?_isSome]
  simp only [Option.isNone_iff_eq_none]
  exact ⟨fun ⟨i, _, hi⟩ => ⟨i, hi⟩, fun ⟨i, hi⟩ => ⟨i, mem_slots i, hi⟩⟩

theorem State.placeFree_iff (s : State) : s.placeFree = true ↔ s.placesUsed < 16 := decide_eq_true_iff

/-- The conditions of the rows of R112. -/
theorem State.resourcesFree_iff (s : State) (c : Classified) :
    s.resourcesFree c = true ↔
      match c.disp with
      | .answer _ => True
      | .forward => s.placesUsed < 16
      | .guardedRead => s.placesUsed < 16
      | .guardedWrite => s.placesUsed < 16
      | .tallyRead => s.placesUsed < 16 ∧ ∀ i t, s.tally.slots.get i = some t → t.cell ≠ c.cell
      | .tallyWrite => s.placesUsed < 16 ∧ (∃ i, s.tally.slots.get i = none)
          ∧ ∀ i t, s.tally.slots.get i = some t → t.cell ≠ c.cell := by
  unfold State.resourcesFree
  cases c.disp with
  | answer k => exact iff_of_true rfl trivial
  | forward | guardedRead | guardedWrite => exact s.placeFree_iff
  | tallyRead => simp only [Bool.and_eq_true, Bool.not_eq_true', s.placeFree_iff, TallyEngine.busy_eq_false_iff]
  | tallyWrite =>
    simp only [Bool.and_eq_true, Bool.not_eq_true', s.placeFree_iff, TallyEngine.busy_eq_false_iff,
      TallyEngine.freeSlot_isSome_iff, and_assoc]

/-- The first of four with a present value: none below it has one. -/
theorem findSome?_four_eq_some_iff {α : Type} (f : Fin 4 → Option α) (x : α) :
    ([0, 1, 2, 3] : List (Fin 4)).findSome? f = some x ↔ ∃ k, f k = some x ∧ ∀ j, j < k → f j = none := by
  have hsorted : ([0, 1, 2, 3] : List (Fin 4)).Pairwise (· < ·) := by decide
  rw [List.findSome?_eq_some_iff]
  constructor
  · rintro ⟨before, k, after, hsplit, hk, hbefore⟩
    refine ⟨k, hk, fun j hj => hbefore j ?_⟩
    have hmem := mem_slots j
    rw [hsplit] at hsorted hmem
    rcases List.mem_append.1 hmem with hmem | hmem
    · exact hmem
    · rcases List.mem_cons.1 hmem with rfl | hmem
      · exact absurd hj (Fin.lt_irrefl j)
      · exact absurd (Fin.lt_trans hj ((List.pairwise_cons.1 (List.pairwise_append.1 hsorted).2.1).1 j hmem)) (Fin.lt_irrefl j)
  · rintro ⟨k, hk, hbelow⟩
    obtain ⟨before, after, hsplit⟩ := List.append_of_mem (mem_slots k)
    refine ⟨before, k, after, hsplit, hk, fun j hj => hbelow j ?_⟩
    rw [hsplit] at hsorted
    exact (List.pairwise_append.1 hsorted).2.2 j hj k List.mem_cons_self

theorem State.winner_eq_some_iff (s : State) (g : Grant) :
    s.winner = some g ↔ ∃ k, s.candidate (s.pointer + k) = some g ∧ ∀ j, j < k → s.candidate (s.pointer + j) = none :=
  findSome?_four_eq_some_iff (fun k => s.candidate (s.pointer + k)) g

theorem State.port_of_candidate {s : State} {p : PortIx} {g : Grant} (h : s.candidate p = some g) : g.port = p := by
  obtain ⟨acc, rest, -, rfl, -⟩ := (s.candidate_eq_some_iff p g).1 h
  rfl

/-- What a grant makes of the front ends, and the blocks no grant touches (R113, R114). -/
theorem State.grantEffects_fronts (s : State) (g : Grant) :
    (((s.leaveQueue g).grantEffects g).ports = s.granted g
        ∨ ∃ k, ((s.leaveQueue g).grantEffects g).ports = s.ports.set g.port ((s.ports.get g.port).answeredHead g.acc.id k))
      ∧ ((s.leaveQueue g).grantEffects g).pointer = g.port + 1 ∧ ((s.leaveQueue g).grantEffects g).loader = s.loader
      ∧ ((s.leaveQueue g).grantEffects g).link = s.link ∧ ((s.leaveQueue g).grantEffects g).pending = s.pending := by
  have hleave : (s.leaveQueue g).ports = s.granted g := by rw [State.leaveQueue_eq]; rfl
  have hanswer (k : Cause) :
      ((s.leaveQueue g).respond g.port g.acc.id k []).ports = s.ports.set g.port ((s.ports.get g.port).answeredHead g.acc.id k) := by
    rw [State.respond_leaveQueue]
  have hanswerRunOuts (k : Cause) :
      ((s.leaveQueue g).takeRunOuts.respond g.port g.acc.id k []).ports
        = s.ports.set g.port ((s.ports.get g.port).answeredHead g.acc.id k) := by
    rw [State.takeRunOuts_leaveQueue, State.respond_leaveQueue, State.takeRunOuts_ports]
  unfold State.grantEffects
  cases g.cls.disp with
  | answer k => exact ⟨.inr ⟨k, by simp [hanswer]⟩, by simp, by simp, by simp, by simp⟩
  | forward | tallyRead => exact ⟨.inl (by simp [hleave]), by simp, by simp, by simp, by simp⟩
  | guardedRead => simp [State.takeGuardedRead, hleave]
  | guardedWrite =>
    dsimp only
    unfold State.takeGuardedWrite
    split
    next k _ => exact ⟨.inr ⟨k, by simp [hanswerRunOuts]⟩, by simp, by simp, by simp, by simp⟩
    next => simp [hleave]
  | tallyWrite => dsimp only; split <;> simp [hleave]

/-- Whichever way a granted request is taken, it leaves its queue, and the other front ends stay. -/
theorem State.grantEffects_queues (s : State) (g : Grant) :
    (((s.leaveQueue g).grantEffects g).ports.get g.port).queue = (s.ports.get g.port).queue.tail
      ∧ ∀ p, p ≠ g.port → ((s.leaveQueue g).grantEffects g).ports.get p = s.ports.get p := by
  rcases (s.grantEffects_fronts g).1 with heq | ⟨k, heq⟩ <;> rw [heq]
  · exact ⟨by rw [State.granted, Four.get_set_self], fun p hp => Four.get_set_ne _ _ hp⟩
  · exact ⟨by rw [Four.get_set_self]; rfl, fun p hp => Four.get_set_ne _ _ hp⟩

/-- Settles O12: the winner is the first candidate from the pointer on, and a grant leaves every other front end. -/
theorem grantGoesRoundRobin : Obligations.GrantGoesRoundRobin := by
  unfold Obligations.GrantGoesRoundRobin
  refine ⟨fun s p g => ?_, fun s => exec_admission_of_no_candidate, fun s k g hk hbefore => ?_⟩
  · rw [s.candidate_eq_some_iff]
    constructor
    · rintro ⟨acc, rest, hqueue, hg, hadmits, hfree⟩
      obtain ⟨hrunning, hpause⟩ := s.admits_iff.1 hadmits
      exact ⟨acc, rest, hqueue, hg, hrunning, hpause, (s.resourcesFree_iff _).1 hfree⟩
    · rintro ⟨acc, rest, hqueue, hg, hrunning, hpause, hfree⟩
      exact ⟨acc, rest, hqueue, hg, s.admits_iff.2 ⟨hrunning, hpause⟩, (s.resourcesFree_iff _).2 hfree⟩
  · have hwinner := (s.winner_eq_some_iff g).2 ⟨k, hk, hbefore⟩
    obtain ⟨-, hpointer, hloader, hlink, hpending⟩ := s.grantEffects_fronts g
    obtain ⟨hqueue, hother⟩ := s.grantEffects_queues g
    rw [State.port_of_candidate hk] at hpointer hqueue hother
    exact ⟨_, exec_admission hwinner, hpointer, hqueue, hother, hloader, hlink, hpending⟩

/-- A pointer that moves past a port before `p` comes nearer to `p`. -/
theorem pointer_nearer (pointer d k : Fin 4) (h : k < d) :
    (pointer + d - (pointer + k + 1)).val < (pointer + d - pointer).val := by
  revert pointer d k
  decide

theorem pointer_add_distance (pointer p : Fin 4) : p = pointer + (p - pointer) := by
  revert pointer p
  decide

theorem pointer_add_ne_of_lt (pointer d k : Fin 4) (h : k < d) : pointer + d ≠ pointer + k := by
  revert pointer d k
  decide

/-- Settles O13: the winner stands at most as far from the pointer as the port that waits. -/
theorem waitingPortIsServed : Obligations.WaitingPortIsServed := by
  unfold Obligations.WaitingPortIsServed
  intro s p g hp
  obtain ⟨d, rfl⟩ : ∃ d, p = s.pointer + d := ⟨p - s.pointer, pointer_add_distance s.pointer p⟩
  obtain ⟨g', hwinner⟩ : ∃ g', s.winner = some g' := by
    rw [← Option.isSome_iff_exists, State.winner, List.findSome?_isSome_iff]
    exact ⟨d, mem_slots d, by rw [hp]; rfl⟩
  obtain ⟨k, hk, hbefore⟩ := (s.winner_eq_some_iff g').1 hwinner
  obtain ⟨-, hpointer, -⟩ := s.grantEffects_fronts g'
  obtain ⟨hqueue, hother⟩ := s.grantEffects_queues g'
  rw [State.port_of_candidate hk] at hpointer hqueue hother
  refine ⟨_, exec_admission hwinner, ?_⟩
  by_cases heq : k = d
  · exact .inl (heq ▸ hqueue)
  rcases Fin.lt_or_lt_of_ne heq with hlt | hgt
  · refine .inr ⟨congrArg Port.queue (hother _ (pointer_add_ne_of_lt s.pointer d k hlt)), ?_⟩
    rw [hpointer]
    exact pointer_nearer s.pointer d k hlt
  · rw [hbefore d hgt] at hp
    cases hp

end Sys2Proof.Machine
end

section
-- One theorem at a time: side by side the proofs ask for more threads than the sandbox grants.
set_option Elab.async false

/-! PROOFS. The laws right after reset (O4); and the grants of requests that are answered, forwarded or taken as tallies (R13, R14, R87): O14,
O15 and O25. -/
namespace Sys2Proof.Machine

/-- Settles O4: every block is empty. -/
theorem resetMeetsTheLaws : Obligations.ResetMeetsTheLaws := by
  unfold Obligations.ResetMeetsTheLaws
  have hslots : ∀ i, State.reset.tally.slots.get i = none := fun i => Four.get_all none i
  obtain ⟨hcells, hhistory⟩ := State.reset.talliesLawful_iff.2 (.of_idle hslots fun _ => .inl rfl)
  refine ⟨?_, State.reset_monitor_lawful, State.reset.trafficLawful_iff.2 (.of_empty hslots rfl rfl), hcells, hhistory, fun _ => rfl,
    ⟨Nat.zero_le _, rfl, rfl⟩, Capture.lawful_of_empty rfl, ⟨by simp [State.reset], fun _ => rfl⟩,
    by simp [State.marksLawful, State.reset]⟩
  refine State.reset.responsesLawful_iff.2 (.of_empty (fun p => ?_) (fun p => ?_) hslots)
  · exact (Four.get_all Port.powerOn p).symm ▸ Port.atPowerOn_lawful false
  · exact (Four.get_all Port.powerOn p).symm ▸ rfl

/-! ### A request answered at classification (R13) -/

/-- What the classifier hands over with a granted request (R12). -/
theorem State.Offers.dir {s : State} {g : Grant} (h : s.Offers g) : g.cls.dir = g.acc.req.dir := by
  rw [h.classified]
  rfl

theorem State.Offers.cell {s : State} {g : Grant} (h : s.Offers g) : g.cls.cell = cellOf g.acc.req.addr := by
  rw [h.classified]
  rfl

/-- The grant of a request that the classifier answers. -/
theorem exec_admission_of_answer {s : State} {g : Grant} {k : Cause} {x : MonitorStep} (hgrant : s.winner = some g)
    (hdisp : g.cls.disp = .answer k) (hx : s.monitor.answer g.cls.agent g.cls.dir g.cls.cell g.cls.region k = x)
    (hevicted : x.evicted = false) :
    exec .admission s =
      .next { s.offerAll x.records with
        ports := s.ports.set g.port ((s.ports.get g.port).answeredHead g.acc.id k)
        pointer := g.port + 1
        monitor := x.monitor } := by
  have heffects : (s.leaveQueue g).grantEffects g = ((s.leaveQueue g).respond g.port g.acc.id k []).takeMonitor x := by
    simp only [State.grantEffects, hdisp, State.leaveQueue_monitor, hx]
  have htake := s.takeMonitor_with x (s.ports.set g.port ((s.ports.get g.port).answeredHead g.acc.id k)) (g.port + 1) s.tally s.memory
  rw [exec_admission hgrant, heffects, State.respond_leaveQueue, htake, State.takeMonitor_of_not_evicted s hevicted]
  simp

/-- Of two changes of one context the second sees the first. -/
theorem Monitor.updCtx_twice (m : Monitor) (a : Agent) (f h : AgentCtx → AgentCtx) :
    (m.updCtx a f).updCtx a h = m.updCtx a fun x => h (f x) := by
  simp [Monitor.updCtx, Monitor.ctx]

/-- The monitor that has taken an ANSWER (R13): a WRITE sets the verdict, FENCED counts a refusal. -/
theorem Monitor.answer_eq (m : Monitor) (a : Agent) (d : Dir) (c : Addr) (region : RegionIx) (k : Cause) :
    m.answer a d c region k =
      { monitor := m.updCtx a fun x =>
          { x with
            verdict := if d = .write then k else x.verdict
            refusals := if k = .fenced ∧ x.refusals < 0xFFFF then x.refusals + 1 else x.refusals }
        records := [if k = .fenced then .ofRefuse a c region k else .ofFault a c region k] } := by
  have hctxs (f : AgentCtx → AgentCtx) (h : f (m.ctx a) = m.ctx a) : m.updCtx a f = m := by
    rw [Monitor.updCtx, h]
    simp [Monitor.ctx]
  unfold Monitor.answer
  by_cases hk : k = .fenced
  · subst hk
    cases d <;> simp [Monitor.setVerdict, Monitor.updCtx_twice, AgentCtx.countRefusal, bump, Config.counterTop] <;> rfl
  · cases d <;> simp [hk, Monitor.setVerdict]
    rw [hctxs _ rfl]

/-- Settles O14: the answer, the monitor and the record are taken one after another. -/
theorem answerAdmitted : Obligations.AnswerAdmitted := by
  unfold Obligations.AnswerAdmitted
  intro s g k hgrant hdisp
  obtain ⟨hoffers, -⟩ := State.offers_of_winner hgrant
  have hanswer := s.monitor.answer_eq g.cls.agent g.cls.dir g.cls.cell g.cls.region k
  refine ⟨_, exec_admission_of_answer hgrant hdisp hanswer rfl, rfl, rfl, rfl, fun a => ?_⟩
  rw [Monitor.ctx_updCtx, hoffers.dir]
  by_cases ha : a = g.cls.agent
  · rw [if_pos ha, if_pos ha, ha]
  · rw [if_neg ha, if_neg ha]

/-! ### A request that is issued (R14, R119) -/

/-- An issue, field by field (R117, R118, R124). -/
theorem MemoryPort.issue_eq (m : MemoryPort) (timeout : Nat) (d : Dir) (addr : Addr) (len : Length) (data : List Byte) (o : Origin) :
    m.issue timeout d addr len data o =
      { outstanding := m.outstanding ++
          [{ tx := { tag := m.nextTag, dir := d, addr := addr, len := len, data := data }, origin := o }]
        nextTag := m.nextTag + 1
        timer := if m.outstanding = [] then (if timeout = 0 then none else some timeout) else m.timer
        issued := m.issued ++ [{ tag := m.nextTag, dir := d, addr := addr, len := len, data := data }] } := by
  simp [MemoryPort.issue, startTimer, List.isEmpty_iff]

/-- With none waiting there is no write half to issue. -/
theorem State.issueWriteHalves_of_idle {s : State} (h : s.tally.waiting = []) : s.issueWriteHalves = s := by
  rw [State.issueWriteHalves, h]
  rfl

theorem State.issueRequest_leaveQueue (s : State) (g : Grant) : (s.leaveQueue g).issueRequest g = (s.issueRequest g).leaveQueue g := by
  rw [State.leaveQueue_eq, s.issueRequest_with, State.leaveQueue_eq, State.mk.injEq]
  simp

/-- The grant of a request that only asks for issue. -/
theorem exec_admission_of_forward {s : State} {g : Grant} (hgrant : s.winner = some g)
    (hdisp : g.cls.disp = .forward ∨ g.cls.disp = .tallyRead) : exec .admission s = .next ((s.issueRequest g).leaveQueue g) := by
  rw [exec_admission hgrant, ← State.issueRequest_leaveQueue]
  rcases hdisp with hdisp | hdisp <;> simp only [State.grantEffects, hdisp]

/-- Settles O15: with no write half waiting the issue is the request's alone. -/
theorem forwardAdmitted : Obligations.ForwardAdmitted := by
  unfold Obligations.ForwardAdmitted
  intro s g tx hgrant hdisp hwaiting htx
  subst htx
  rw [exec_admission_of_forward hgrant hdisp, State.leaveQueue_eq, State.issueRequest, State.issueWriteHalves_of_idle hwaiting,
    State.issue, MemoryPort.issue_eq]
  rfl

/-! ### A tally write (R87, R88) -/

/-- The grant of a tally write: it takes a FREE slot. -/
theorem exec_admission_of_tallyWrite {s : State} {g : Grant} (hgrant : s.winner = some g) (hdisp : g.cls.disp = .tallyWrite) :
    ∃ i, s.tally.slots.get i = none ∧ exec .admission s = .next ((s.takeTally g i).leaveQueue g) := by
  rw [exec_admission hgrant]
  rcases State.grantEffects_traffic hgrant with ⟨⟨k, h⟩ | h, -⟩ | ⟨h | h | h | h, -⟩ | ⟨-, i, hi, heq⟩
  iterate 6
    rw [hdisp] at h
    cases h
  exact ⟨i, TallyEngine.slot_of_freeSlot hi, by rw [heq]⟩

theorem State.Offers.write_of_tallyWrite {s : State} {g : Grant} (h : s.Offers g) (hdisp : g.cls.disp = .tallyWrite) :
    g.acc.req.dir = .write := by
  obtain ⟨-, -, -, hpass⟩ := Loader.disp_of_passed (l := s.loader) (p := g.port) (r := g.acc.req) (by simp [← h.classified, hdisp])
  rw [← h.classified, hdisp] at hpass
  cases hkind : g.cls.kind <;> cases hdir : g.acc.req.dir <;> rw [hkind, hdir] at hpass <;> cases hpass

/-- The tally of a granted tally write (R85, R87): its width is the request's, its offset and addend are the request's bytes. -/
theorem Grant.newTally_eq {s : State} {g : Grant} {region : Nat} {mode : TallyMode} {width : TallyWidth} (hoffers : s.Offers g)
    (hdisp : g.cls.disp = .tallyWrite) (hregion : g.cls.region = .region region) (hkind : g.cls.kind = .tally mode)
    (hwidth : g.acc.req.len = .single .s4 ∧ width = .w4 ∨ g.acc.req.len = .single .s8 ∧ width = .w8) :
    g.newTally =
      { phase := .reading, agent := g.cls.agent, cell := g.cls.cell, region := region
        offset := g.acc.req.addr.toNat - g.cls.cell.toNat, width := width
        addend := BitVec.ofNat 64 (leNat (laneBytes width.bytes g.acc.req.data))
        mode := mode, epoch := g.acc.epoch, tag := none, id := g.acc.id } := by
  have hoffset : (g.acc.req.addr - g.cls.cell).toNat = g.acc.req.addr.toNat - g.cls.cell.toNat := by
    refine BitVec.toNat_sub_of_le (BitVec.le_def.2 ?_)
    rw [hoffers.cell, toNat_cellOf]
    omega
  have hpayload : g.acc.req.payload = laneBytes width.bytes g.acc.req.data := by
    rw [Req.payload, hoffers.write_of_tallyWrite hdisp]
    rcases hwidth with ⟨hlen, rfl⟩ | ⟨hlen, rfl⟩ <;> rw [hlen] <;> rfl
  have hwidthOf : widthOf g.acc.req.len = width := by
    rcases hwidth with ⟨hlen, rfl⟩ | ⟨hlen, rfl⟩ <;> rw [hlen] <;> rfl
  rw [Grant.newTally, hoffset, hpayload, hwidthOf, hregion, hkind]
  rfl

/-- Settles O25: the slot taken is FREE, and the read half is issued with its tag. -/
theorem tallyWriteTaken : Obligations.TallyWriteTaken := by
  unfold Obligations.TallyWriteTaken
  intro s g region mode width hgrant hdisp hregion hkind hwaiting hwidth
  obtain ⟨hoffers, -⟩ := State.offers_of_winner hgrant
  obtain ⟨i, hfree, hexec⟩ := exec_admission_of_tallyWrite hgrant hdisp
  obtain ⟨-, -, haddr, hlen⟩ := Grant.newTally_fieldsLawful hoffers.classified hdisp
  have hnew := Grant.newTally_eq hoffers hdisp hregion hkind hwidth
  refine ⟨i, _, hfree, rfl, ?_⟩
  have haddr' : ({ g.newTally with tag := some s.memory.nextTag } : Tally).addr = g.acc.req.addr := haddr
  have hlen' : ({ g.newTally with tag := some s.memory.nextTag } : Tally).width.len = g.acc.req.len := hlen
  rw [hexec, State.leaveQueue_eq, State.takeTally, State.issueWriteHalves_of_idle hwaiting]
  dsimp only
  rw [State.issue, MemoryPort.issue_eq, haddr', hlen', hnew]
  rfl

end Sys2Proof.Machine
end

section
-- One theorem at a time: side by side the proofs ask for more threads than the sandbox grants.
set_option Elab.async false

/-! PROOFS. Guarded writes (R43 to R57, R78): how one is judged, a refusal that does not escalate, and the two commits: O20 to O23. -/
namespace Sys2Proof.Machine

/-! ### The judgement (R43) -/

theorem HoldSlot.holdsForOther_iff (h : HoldSlot) (a : Agent) (c : Addr) :
    h.holdsForOther a c = true ↔ ∃ b r n, h = .holding b c r n ∧ b ≠ a := by
  cases h with
  | free | entitled => simp [HoldSlot.holdsForOther]
  | holding b d r n =>
    simp only [HoldSlot.holdsForOther, Bool.and_eq_true, bne_iff_ne, beq_iff_eq, HoldSlot.holding.injEq]
    constructor
    · rintro ⟨hb, rfl⟩
      exact ⟨b, r, n, ⟨rfl, rfl, rfl, rfl⟩, hb⟩
    · rintro ⟨_, _, _, ⟨rfl, rfl, -, -⟩, hb⟩
      exact ⟨hb, rfl⟩

theorem Monitor.findSlot_ne_none_iff (m : Monitor) (p : HoldSlot → Bool) : m.findSlot p ≠ none ↔ ∃ i, p (m.slots.get i) = true := by
  simp [Monitor.findSlot_none]

/-- Each judgement by the searches that come before it. -/
theorem Monitor.judge_eq_heldByOther_iff (m : Monitor) (a : Agent) (c : Addr) :
    m.judge a c = .heldByOther ↔ m.findSlot (·.holdsForOther a c) ≠ none := by
  rcases m.judge_cases a c with ⟨i, h, hj⟩ | ⟨h, ⟨i, -, hj⟩ | ⟨-, ⟨e, -, hj⟩ | ⟨-, ⟨k, -, hj⟩ | ⟨-, hj⟩⟩⟩⟩ <;> simp [h, hj]

theorem Monitor.judge_eq_byHold_iff (m : Monitor) (a : Agent) (c : Addr) (i : SlotIx) :
    m.judge a c = .byHold i ↔ m.findSlot (·.holdsForOther a c) = none ∧ m.findSlot (·.holds a c) = some i := by
  rcases m.judge_cases a c with ⟨i, h, hj⟩ | ⟨h, ⟨i, hi, hj⟩ | ⟨hi, ⟨e, -, hj⟩ | ⟨-, ⟨k, -, hj⟩ | ⟨-, hj⟩⟩⟩⟩ <;> simp [*]

theorem Monitor.judge_eq_byEntry_iff (m : Monitor) (a : Agent) (c : Addr) :
    m.judge a c = .byEntry ↔
      m.findSlot (·.holdsForOther a c) = none ∧ m.findSlot (·.holds a c) = none ∧ m.entry a c ≠ none := by
  rcases m.judge_cases a c with ⟨i, h, hj⟩ | ⟨h, ⟨i, hi, hj⟩ | ⟨hi, ⟨e, he, hj⟩ | ⟨he, ⟨k, -, hj⟩ | ⟨-, hj⟩⟩⟩⟩ <;> simp [*]

theorem Monitor.judge_eq_lost_iff (m : Monitor) (a : Agent) (c : Addr) (k : Cause) :
    m.judge a c = .lost k ↔
      m.findSlot (·.holdsForOther a c) = none ∧ m.findSlot (·.holds a c) = none ∧ m.entry a c = none ∧ m.lossOf a c = some k := by
  rcases m.judge_cases a c with ⟨i, h, hj⟩ | ⟨h, ⟨i, hi, hj⟩ | ⟨hi, ⟨e, he, hj⟩ | ⟨he, ⟨k, hk, hj⟩ | ⟨hk, hj⟩⟩⟩⟩ <;> simp [*]

theorem Monitor.judge_eq_noReservation_iff (m : Monitor) (a : Agent) (c : Addr) :
    m.judge a c = .noReservation ↔
      m.findSlot (·.holdsForOther a c) = none ∧ m.findSlot (·.holds a c) = none ∧ m.entry a c = none ∧ m.lossOf a c = none := by
  rcases m.judge_cases a c with ⟨i, h, hj⟩ | ⟨h, ⟨i, hi, hj⟩ | ⟨hi, ⟨e, he, hj⟩ | ⟨he, ⟨k, hk, hj⟩ | ⟨hk, hj⟩⟩⟩⟩ <;> simp [*]

/-- No slot is HOLDING the cell, by the two searches. -/
theorem Monitor.not_held_iff_findSlot (m : Monitor) (a : Agent) (c : Addr) :
    (∀ i b r n, m.slots.get i ≠ .holding b c r n) ↔
      m.findSlot (·.holdsForOther a c) = none ∧ m.findSlot (·.holds a c) = none := by
  simp only [Monitor.findSlot_none, ← Bool.not_eq_true, HoldSlot.holdsForOther_iff, HoldSlot.holds_iff]
  constructor
  · intro h
    exact ⟨fun i hi => by obtain ⟨b, r, n, hi, -⟩ := hi; exact h i b r n hi, fun i hi => by obtain ⟨r, n, hi⟩ := hi; exact h i a r n hi⟩
  · rintro ⟨hother, hown⟩ i b r n hi
    by_cases hb : b = a
    · exact hown i ⟨r, n, hb ▸ hi⟩
    · exact hother i ⟨b, r, n, hi, hb⟩

/-- The slot that is HOLDING a cell for an agent is found, and no slot is HOLDING it for another (R65). -/
theorem Monitor.holding_iff_findSlot {m : Monitor} (h : m.slotsLawful) (a : Agent) (c : Addr) (i : SlotIx) :
    (∃ r n, m.slots.get i = .holding a c r n) ↔
      m.findSlot (·.holdsForOther a c) = none ∧ m.findSlot (·.holds a c) = some i := by
  obtain ⟨-, hcells, -⟩ := h
  constructor
  · rintro ⟨r, n, hi⟩
    have hcell {j : SlotIx} {b : Agent} {r' n' : Nat} (hj : m.slots.get j = .holding b c r' n') : j = i :=
      hcells j i c (by rw [hj]; rfl) (by rw [hi]; rfl)
    refine ⟨?_, ?_⟩
    · rw [Monitor.findSlot_none]
      refine fun j => Bool.not_eq_true _ ▸ fun hj => ?_
      obtain ⟨b, r', n', hj, hb⟩ := (HoldSlot.holdsForOther_iff _ a c).1 hj
      rw [hcell hj, hi] at hj
      cases hj
      exact hb rfl
    · obtain ⟨j, hj⟩ := Option.ne_none_iff_exists'.1 ((m.findSlot_ne_none_iff (·.holds a c)).2
        ⟨i, (HoldSlot.holds_iff _ a c).2 ⟨r, n, hi⟩⟩)
      obtain ⟨r', n', hj'⟩ := (HoldSlot.holds_iff _ a c).1 (Monitor.findSlot_some hj).1
      rw [hj, hcell hj']
  · rintro ⟨-, hi⟩
    exact (HoldSlot.holds_iff _ a c).1 (Monitor.findSlot_some hi).1

theorem Monitor.lossOf_eq_none_iff (m : Monitor) (a : Agent) (c : Addr) :
    m.lossOf a c = none ↔ ∀ x ∈ (m.ctx a).loss, x.cell ≠ c := by
  simp [Monitor.lossOf]

/-- In a lawful loss list the cause looked up is that of the one entry for the cell (R35). -/
theorem Monitor.lossOf_eq_some_iff {m : Monitor} (h : m.lossLawful) (a : Agent) (c : Addr) (k : Cause) :
    m.lossOf a c = some k ↔ { cell := c, cause := k } ∈ (m.ctx a).loss := by
  obtain ⟨-, hdistinct, -⟩ := h a
  simp only [Monitor.lossOf, Option.map_eq_some_iff]
  constructor
  · rintro ⟨⟨d, k'⟩, hfind, rfl⟩
    have hd : d = c := by simpa using List.find?_some hfind
    exact hd ▸ List.mem_of_find?_eq_some hfind
  · intro hmem
    cases hfind : (m.ctx a).loss.find? (·.cell == c) with
    | none => simpa using List.find?_eq_none.1 hfind _ hmem
    | some x =>
      have hx : x.cell = c := by simpa using List.find?_some hfind
      have hsame := eq_of_pairwise_ne hdistinct (List.mem_of_find?_eq_some hfind) hmem hx
      exact ⟨x, rfl, by rw [hsame]⟩

/-- Settles O20: each case of the judgement by the lookup it makes. -/
theorem guardedWriteJudged : Obligations.GuardedWriteJudged := by
  unfold Obligations.GuardedWriteJudged
  rintro m a c ⟨-, hloss, hslots, -, -, -⟩
  have hentry : (∃ e ∈ m.table, e.agent = a ∧ e.cell = c) ↔ m.entry a c ≠ none := by simp [Monitor.entry_none_iff]
  refine ⟨?_, fun i => ?_, ?_, fun k => ?_, ?_⟩
  · rw [Monitor.judge_eq_heldByOther_iff, Monitor.findSlot_ne_none_iff]
    simp only [HoldSlot.holdsForOther_iff]
  · rw [Monitor.judge_eq_byHold_iff, Monitor.holding_iff_findSlot hslots]
  · rw [Monitor.judge_eq_byEntry_iff, m.not_held_iff_findSlot a, hentry, and_assoc]
  · rw [Monitor.judge_eq_lost_iff, m.not_held_iff_findSlot a, ← Monitor.entry_none_iff, Monitor.lossOf_eq_some_iff hloss, and_assoc]
  · rw [Monitor.judge_eq_noReservation_iff, m.not_held_iff_findSlot a, ← Monitor.entry_none_iff, Monitor.lossOf_eq_none_iff, and_assoc]

/-! ### A refusal that does not escalate (R44, R47, R55, R56) -/

/-- A refused write, whichever of the three refusals it is: the cause's loss entry, if it gave the cause, is used up first. -/
theorem State.writeStep_of_refusal {s : State} {g : Grant} {lease holdLimit threshold : Nat} {k : Cause}
    (hkind : g.cls.kind = .guarded lease holdLimit threshold)
    (hjudge : s.monitor.judge g.cls.agent g.cls.cell = .heldByOther ∧ k = .held
      ∨ s.monitor.judge g.cls.agent g.cls.cell = .lost k
      ∨ s.monitor.judge g.cls.agent g.cls.cell = .noReservation ∧ k = .noReservation) :
    s.writeStep g =
      { step := (s.monitor.useUpLoss g.cls.agent g.cls.cell k).refuse g.cls.agent g.cls.cell g.cls.region k threshold
          s.loader.entitlementLimit
        refusal := some k } := by
  rcases hjudge with ⟨hheld, rfl⟩ | hlost
  · simp [State.writeStep, hkind, RegionKind.threshold, Monitor.guardedWrite, Monitor.useUpLoss, hheld]
  · exact State.writeStep_of_refused hkind hlost

/-- A refusal that does not escalate: the context is counted, and REFUSE is the one record. -/
theorem Monitor.refuse_of_no_escalation {m : Monitor} {a : Agent} {k : Cause} {threshold : Nat}
    (h : k.raisesStreak = false ∨ threshold = 0 ∨ (m.ctx a).state ≠ .normal ∨ bump Config.streakTop (m.ctx a).streak < threshold)
    (c : Addr) (region : RegionIx) (limit : Nat) :
    m.refuse a c region k threshold limit =
      { monitor := m.updCtx a fun x =>
          { x.countRefusal with verdict := k, streak := if k.raisesStreak then bump Config.streakTop x.streak else x.streak }
        records := [.ofRefuse a c region k] } := by
  cases hk : k.raisesStreak with
  | false => simp [Monitor.refuse, hk]
  | true =>
    rw [Monitor.refuse_of_raisesStreak hk]
    rcases (m.countRefusal a k).escalationCheck_cases a threshold limit with ⟨-, heq⟩ | ⟨⟨hthreshold, hnormal, hreached⟩, -⟩
    · rw [heq]
      rfl
    · simp only [Monitor.ctx_countRefusal, if_true] at hnormal hreached
      rcases h with h | h | h | h
      · rw [hk] at h
        cases h
      · exact absurd h hthreshold
      · exact absurd hnormal h
      · exact absurd hreached (Nat.not_le.2 h)

/-- Settles O23: the refusal in the monitor, by the cause of its case. -/
theorem writeRefused : Obligations.WriteRefused := by
  unfold Obligations.WriteRefused
  intro s g lease holdLimit threshold k streak hgrant hdisp hkind hnone hjudge hstreak hstays
  have hbump : streak = if k.raisesStreak then bump Config.streakTop (s.monitor.ctx g.cls.agent).streak
      else (s.monitor.ctx g.cls.agent).streak := by
    rw [hstreak]
    by_cases hk : k.raisesStreak = true
    · by_cases hlt : (s.monitor.ctx g.cls.agent).streak < 15 <;> simp [hk, ← k.raisesStreak_iff, bump, Config.streakTop, hlt]
    · simp [hk, ← k.raisesStreak_iff]
  have hctx (a : Agent) := s.monitor.ctx_useUpLoss g.cls.agent a g.cls.cell k
  have hwrite := State.writeStep_of_refusal hkind hjudge
  rw [Monitor.refuse_of_no_escalation] at hwrite
  · refine ⟨_, exec_admission_of_refusedWrite hgrant hdisp hnone hwrite rfl, by simp, by simp, by simp, fun a => ?_⟩
    rw [Monitor.ctx_updCtx, hctx, hctx]
    by_cases ha : a = g.cls.agent
    · subst ha
      simp only [if_true, hbump]
      rfl
    · simp only [ha, if_false]
  · rw [hctx, if_pos rfl]
    cases hk : k.raisesStreak with
    | false => exact .inl rfl
    | true =>
      rw [hk, if_pos rfl] at hbump
      rw [← k.raisesStreak_iff, hk, hbump] at hstays
      exact .inr (hstays.resolve_left fun hnot => hnot rfl)

/-! ### A commit (R45, R46, R49, R50, R57) -/

/-- The grant of a guarded write that commits: it is issued, and the monitor takes the commit. -/
theorem exec_admission_of_committedWrite {s : State} {g : Grant} {x : MonitorStep} (hgrant : s.winner = some g)
    (hdisp : g.cls.disp = .guardedWrite) (hnone : s.monitor.noneRunOut) (hwrite : s.writeStep g = { step := x, refusal := none })
    (hevicted : x.evicted = false) :
    exec .admission s =
      .next { (s.issueRequest g).offerAll x.records with
        ports := s.ports.set g.port { s.ports.get g.port with queue := (s.ports.get g.port).queue.tail }
        pointer := g.port + 1
        monitor := x.monitor } := by
  have hrunOuts : (s.leaveQueue g).takeRunOuts = s.leaveQueue g := State.takeRunOuts_of_noneRunOut hnone
  have hstep : (s.leaveQueue g).writeStep g = { step := x, refusal := none } := hwrite
  have heffects : (s.leaveQueue g).grantEffects g = ((s.leaveQueue g).issueRequest g).takeMonitor x := by
    rw [← State.issueRequest_takeMonitor]
    simp only [State.grantEffects, hdisp, hrunOuts, State.takeGuardedWrite, hstep]
  rw [exec_admission hgrant, heffects, State.takeMonitor_issueRequest_leaveQueue, State.leaveQueue_eq,
    State.takeMonitor_of_not_evicted _ hevicted]
  simp

/-- A loss stands at the newest end, behind entries for other cells (R36). -/
theorem insertLoss_eq_append (l : List LossEntry) (c : Addr) (k : Cause) :
    ∃ kept, (∀ x ∈ kept, x.cell ≠ c) ∧ insertLoss l c k = kept ++ [{ cell := c, cause := k }] := by
  unfold insertLoss
  split
  next => exact ⟨_, fun x hx => by simpa using (List.mem_filter.1 hx).2, rfl⟩
  next hany =>
    have hother : ∀ x ∈ l, x.cell ≠ c := by simpa using hany
    split
    · exact ⟨_, fun x hx => hother x (List.mem_of_mem_drop hx), rfl⟩
    · exact ⟨_, hother, rfl⟩

/-- A second loss of the same cell with the same cause changes nothing. -/
theorem insertLoss_idem (l : List LossEntry) (c : Addr) (k : Cause) : insertLoss (insertLoss l c k) c k = insertLoss l c k := by
  obtain ⟨kept, hother, heq⟩ := insertLoss_eq_append l c k
  have hfilter : kept.filter (·.cell != c) = kept := List.filter_eq_self.2 fun x hx => by simpa using hother x hx
  rw [heq]
  simp [insertLoss, hfilter]

/-- The contexts after entries on one cell are broken: each of their agents has lost the cell. -/
theorem Monitor.ctx_foldl_breakEntry (es : List TableEntry) {c : Addr} (hcell : ∀ e ∈ es, e.cell = c) (m : Monitor) (a : Agent) :
    (es.foldl Monitor.breakEntry m).ctx a =
      if es.any (fun e => e.agent == a) then { m.ctx a with loss := insertLoss (m.ctx a).loss c .broken } else m.ctx a := by
  induction es generalizing m with
  | nil => rfl
  | cons e es ih =>
    have hbreak : (m.breakEntry e).ctx a =
        if a = e.agent then { m.ctx a with loss := insertLoss (m.ctx a).loss c .broken } else m.ctx a := by
      rw [Monitor.breakEntry, Monitor.ctx_lose, hcell e (List.mem_cons_self ..)]
      by_cases ha : a = e.agent
      · subst ha
        rfl
      · rw [if_neg ha, if_neg ha]
        rfl
    rw [List.foldl_cons, ih (fun x hx => hcell x (List.mem_cons_of_mem _ hx)), hbreak, List.any_cons]
    by_cases ha : a = e.agent
    · subst ha
      simp [insertLoss_idem]
    · simp [ha, Ne.symm ha]

/-- The broken entries leave the table. -/
theorem Monitor.breakOthers_table (m : Monitor) (a : Agent) (c : Addr) :
    (m.breakOthers a c).monitor.table = m.table.filter fun e => !(e.agent != a && e.cell == c) := by
  rw [Monitor.breakOthers, Monitor.foldl_breakEntry_table]
  refine List.filter_congr fun e he => ?_
  congr 1
  rw [Bool.eq_iff_iff, List.any_eq_true]
  simp only [Monitor.victims, List.mem_filter, TableEntry.isOf_iff]
  constructor
  · rintro ⟨v, ⟨-, hv⟩, hagent, hcell⟩
    rwa [← hagent, ← hcell] at hv
  · intro hv
    exact ⟨e, ⟨he, hv⟩, rfl, rfl⟩

/-- What breaking the other agents' entries makes of the contexts (R49): the writer's stays. -/
theorem Monitor.ctx_breakOthers (m : Monitor) (a b : Agent) (c : Addr) :
    (m.breakOthers a c).monitor.ctx b =
      if b ≠ a ∧ m.table.any (fun e => e.agent == b && e.cell == c) then
        { m.ctx b with loss := insertLoss (m.ctx b).loss c .broken }
      else m.ctx b := by
  have hvictim (e : TableEntry) : e ∈ m.victims a c ↔ e ∈ m.table ∧ e.agent ≠ a ∧ e.cell = c := by
    simp [Monitor.victims]
  have hany : (m.victims a c).any (fun e => e.agent == b) = true ↔
      b ≠ a ∧ m.table.any (fun e => e.agent == b && e.cell == c) = true := by
    simp only [List.any_eq_true, hvictim, Bool.and_eq_true, beq_iff_eq]
    constructor
    · rintro ⟨e, ⟨he, hother, hcell⟩, rfl⟩
      exact ⟨hother, e, he, rfl, hcell⟩
    · rintro ⟨hother, e, he, rfl, hcell⟩
      exact ⟨e, ⟨he, hother, hcell⟩, rfl⟩
  rw [Monitor.breakOthers, Monitor.ctx_foldl_breakEntry _ fun e he => ((hvictim e).1 he).2.2]
  simp only [hany]

theorem Monitor.breakOthers_waitList (m : Monitor) (a : Agent) (c : Addr) : (m.breakOthers a c).monitor.waitList = m.waitList :=
  (Monitor.foldl_breakEntry_frame _ m).2.1

/-- The BREAK records of a commit: those of the other agents' entries on the cell (R49, R50). -/
theorem Monitor.breakOthers_records (m : Monitor) (a : Agent) (c : Addr) :
    (m.breakOthers a c).records =
      (m.table.filter fun e => e.agent != a && e.cell == c).map fun e => .ofBreak e.agent c (.region e.region) a := by
  refine List.map_congr_left fun e he => ?_
  rw [Monitor.victims, List.mem_filter, Bool.and_eq_true, beq_iff_eq] at he
  rw [he.2.2]

/-- A commit by an entry (R46, R49, R50, R57): every entry on the cell is gone. -/
theorem Monitor.commitByEntry_spec (m : Monitor) (a : Agent) (c : Addr) (region : RegionIx) :
    ∃ n : Monitor,
      m.commitByEntry a c region =
        { monitor := n
          records := .ofCommit a c region ::
            (m.table.filter fun e => e.agent != a && e.cell == c).map fun e => .ofBreak e.agent c (.region e.region) a }
      ∧ n.table = m.table.filter (fun e => e.cell != c) ∧ n.slots = m.slots ∧ n.waitList = m.waitList
      ∧ ∀ b, n.ctx b =
          if b = a then (m.ctx b).countCommit
          else if m.table.any (fun e => e.agent == b && e.cell == c) then
            { m.ctx b with loss := insertLoss (m.ctx b).loss c .broken }
          else m.ctx b := by
  have hown (e : TableEntry) (p : Bool) : ((e.agent != a && p) && !e.isOf a c) = (e.agent != a && p) := by
    by_cases ha : e.agent = a <;> simp [TableEntry.isOf, ha]
  refine ⟨((m.removeEntry a c).updCtx a AgentCtx.countCommit).breakOthers a c |>.monitor, ?_, ?_, Monitor.breakOthers_slots _ _,
    Monitor.breakOthers_waitList _ _ _, fun b => ?_⟩
  · rw [Monitor.commitByEntry, Monitor.breakOthers_records, Monitor.updCtx_table, Monitor.removeEntry_table, List.filter_filter]
    simp only [hown]
    rfl
  · rw [Monitor.breakOthers_table, Monitor.updCtx_table, Monitor.removeEntry_table, List.filter_filter]
    refine List.filter_congr fun e _ => ?_
    simp only [TableEntry.isOf, bne]
    cases e.agent == a <;> cases e.cell == c <;> rfl
  · rw [Monitor.ctx_breakOthers, Monitor.ctx_updCtx, Monitor.updCtx_table, Monitor.removeEntry_table]
    by_cases hb : b = a
    · simp [hb]
    · have hkept : (m.table.filter fun e => !e.isOf a c).any (fun e => e.agent == b && e.cell == c)
          = m.table.any fun e => e.agent == b && e.cell == c := by
        rw [List.any_filter]
        refine List.any_congr rfl fun e => ?_
        by_cases he : e.agent = b <;> simp [TableEntry.isOf, he, hb]
      simp [hb, hkept]

/-- Settles O21: the commit in the monitor, carried over the whole part. -/
theorem writeByReservationCommits : Obligations.WriteByReservationCommits := by
  unfold Obligations.WriteByReservationCommits
  intro s g hgrant hdisp hnone hjudge
  obtain ⟨m, hcommit, htable, hslots, hwait, hctx⟩ := s.monitor.commitByEntry_spec g.cls.agent g.cls.cell g.cls.region
  have hwrite : s.writeStep g =
      { step := s.monitor.commitByEntry g.cls.agent g.cls.cell g.cls.region, refusal := none } := by
    rw [State.writeStep, Monitor.guardedWrite, hjudge]
  rw [hcommit] at hwrite
  exact ⟨m, exec_admission_of_committedWrite hgrant hdisp hnone hwrite rfl, htable, hslots, hwait, hctx⟩

/-! ### The release of a slot (R71, R75, R78, R79) -/

/-- What the wait list makes of a slot that has just become FREE (R71). -/
def Monitor.heir (m : Monitor) (limit : Nat) : HoldSlot :=
  match m.waitList with
  | [] => .free
  | w :: _ => .entitled w limit

/-- The promotion for a slot that has just become FREE (R71). -/
theorem Monitor.promote_spec (m : Monitor) (i : SlotIx) (limit : Nat) :
    ∃ n : Monitor,
      (m.setSlot i .free).promote i limit = { monitor := n, records := (m.waitList.take 1).map .ofEntitle }
      ∧ n.table = m.table ∧ n.slots = m.slots.set i (m.heir limit) ∧ n.waitList = m.waitList.tail
      ∧ ∀ b, n.ctx b = { m.ctx b with state := if m.waitList.head? = some b then .entitled else (m.ctx b).state } := by
  cases hwait : m.waitList with
  | nil =>
    exact ⟨m.setSlot i .free, by simp [Monitor.promote, hwait], rfl, by simp [Monitor.heir, hwait, Monitor.setSlot], hwait,
      fun b => by simp⟩
  | cons w rest =>
    refine ⟨(({ m.setSlot i .free with waitList := rest } : Monitor).setSlot i (.entitled w limit)).setAgentState w .entitled,
      by simp [Monitor.promote, hwait, Monitor.entitle], rfl, by simp [Monitor.heir, hwait, Monitor.setSlot], rfl, fun b => ?_⟩
    have hctx (b : Agent) : (({ m.setSlot i .free with waitList := rest } : Monitor).setSlot i (.entitled w limit)).ctx b = m.ctx b := rfl
    rw [Monitor.ctx_setAgentState, hctx, hctx]
    by_cases hw : b = w
    · simp [hw]
    · simp [hw, Ne.symm hw]

/-- A release (R75, R78, R79): its records, and the monitor after the promotion that follows it. -/
theorem Monitor.releaseSlot_spec (m : Monitor) (i : SlotIx) (a : Agent) (place : Option (Addr × RegionIx)) (k : Cause) (limit : Nat) :
    ∃ n : Monitor,
      m.releaseSlot i a place k limit =
        { monitor := n, records := .ofRelease a place k :: (m.waitList.take 1).map .ofEntitle }
      ∧ n.table = m.table ∧ n.slots = m.slots.set i (m.heir limit) ∧ n.waitList = m.waitList.tail
      ∧ ∀ b, n.ctx b =
          { m.ctx b with
            state := if m.waitList.head? = some b then .entitled else if b = a then .normal else (m.ctx b).state } := by
  obtain ⟨n, hpromote, htable, hslots, hwait, hctx⟩ := (m.setAgentState a .normal).promote_spec i limit
  refine ⟨n, congrArg (fun x : MonitorStep => { x with records := .ofRelease a place k :: x.records }) hpromote, htable, hslots, hwait,
    fun b => ?_⟩
  rw [hctx, Monitor.ctx_setAgentState, Monitor.setAgentState_waitList]
  by_cases hb : b = a
  · subst hb
    simp
  · simp [hb]

/-- A commit by a hold (R45, R49, R50, R57, R78): the writer has no entry on the cell it holds. -/
theorem Monitor.commitByHold_spec {m : Monitor} {a : Agent} {c : Addr} {i : SlotIx} {held n : Nat}
    (hholding : m.slots.get i = .holding a c held n) (hnone : m.entry a c = none) (hwaiting : a ∉ m.waitList) (region : RegionIx)
    (limit : Nat) :
    ∃ x : Monitor,
      m.commitByHold a c region i limit =
        { monitor := x
          records := .ofCommit a c region ::
            (m.table.filter fun e => e.cell == c).map (fun e => .ofBreak e.agent c (.region e.region) a)
              ++ .ofRelease a (some (c, .region held)) .none :: (m.waitList.take 1).map .ofEntitle }
      ∧ x.table = m.table.filter (fun e => e.cell != c) ∧ x.slots = m.slots.set i (m.heir limit) ∧ x.waitList = m.waitList.tail
      ∧ ∀ b, x.ctx b =
          if b = a then { (m.ctx b).countCommit with state := .normal }
          else
            { m.ctx b with
              state := if m.waitList.head? = some b then .entitled else (m.ctx b).state
              loss :=
                if m.table.any (fun e => e.agent == b && e.cell == c) then insertLoss (m.ctx b).loss c .broken
                else (m.ctx b).loss } := by
  have hown (e : TableEntry) (he : e ∈ m.table) : (e.agent != a && e.cell == c) = (e.cell == c) := by
    have hnot := (m.entry_none_iff a c).1 hnone e he
    by_cases ha : e.agent = a
    · simpa [ha] using fun hc => hnot ⟨ha, hc⟩
    · simp [ha]
  obtain ⟨x, hrelease, htable, hslots, hwait, hctx⟩ :=
    ((m.updCtx a AgentCtx.countCommit).breakOthers a c).monitor.releaseSlot_spec i a (some (c, .region held)) .none limit
  rw [Monitor.breakOthers_waitList] at hrelease hwait
  refine ⟨x, ?_, ?_, ?_, hwait, fun b => ?_⟩
  · rw [Monitor.commitByHold, hholding]
    dsimp only
    rw [hrelease, Monitor.breakOthers_records, Monitor.updCtx_table, List.filter_congr hown]
    rfl
  · rw [htable, Monitor.breakOthers_table, Monitor.updCtx_table]
    exact List.filter_congr fun e he => by rw [hown e he]; rfl
  · rw [hslots, Monitor.breakOthers_slots, Monitor.updCtx_slots, Monitor.heir, Monitor.breakOthers_waitList]
    rfl
  · rw [hctx, Monitor.ctx_breakOthers, Monitor.ctx_updCtx, Monitor.breakOthers_waitList]
    have hhead : m.waitList.head? ≠ some a := fun h => hwaiting (List.mem_of_head? h)
    by_cases hb : b = a
    · subst hb
      simp [hhead]
    · by_cases hany : m.table.any (fun e => e.agent == b && e.cell == c) = true <;> simp [hb, hany]

/-- Settles O22: the commit and the release of the slot with its promotion, carried over the whole part. -/
theorem writeByHoldCommits : Obligations.WriteByHoldCommits := by
  unfold Obligations.WriteByHoldCommits
  intro s g i region n hgrant hdisp hlawful hnone hholding
  obtain ⟨-, -, hslots, hwaits, hholders, -⟩ := hlawful
  have hholds : (s.monitor.slots.get i).holds g.cls.agent g.cls.cell = true := (HoldSlot.holds_iff _ _ _).2 ⟨region, n, hholding⟩
  have hstate : (s.monitor.ctx g.cls.agent).state = .holding := (hslots.2.2.2 g.cls.agent).2 ⟨i, _, hholds⟩
  have hwaiting : g.cls.agent ∉ s.monitor.waitList := fun hmem => by
    rw [(hwaits.2.1 g.cls.agent).2 hmem] at hstate
    cases hstate
  have hjudge : s.monitor.judge g.cls.agent g.cls.cell = .byHold i :=
    (s.monitor.judge_eq_byHold_iff _ _ i).2 ((Monitor.holding_iff_findSlot hslots _ _ i).1 ⟨region, n, hholding⟩)
  obtain ⟨m, hcommit, htable, hslots', hwait, hctx⟩ := Monitor.commitByHold_spec hholding (hholders i _ _ hholds) hwaiting g.cls.region
    s.loader.entitlementLimit
  have hwrite : s.writeStep g =
      { step := s.monitor.commitByHold g.cls.agent g.cls.cell g.cls.region i s.loader.entitlementLimit, refusal := none } := by
    rw [State.writeStep, Monitor.guardedWrite, hjudge]
  rw [hcommit] at hwrite
  exact ⟨m, exec_admission_of_committedWrite hgrant hdisp hnone hwrite rfl, htable, hslots', hwait, hctx⟩

end Sys2Proof.Machine
end

section
-- One theorem at a time: side by side the proofs ask for more threads than the sandbox grants.
set_option Elab.async false

/-! PROOFS. Guarded reads that convert an entitlement or create an entry (R23, R24, R27, R28, R73): O17 and O19. -/
namespace Sys2Proof.Machine

/-- An entitled agent is found in its own slot (R65). -/
theorem Monitor.findSlot_entitles {m : Monitor} (h : m.slotsLawful) {a : Agent} {i : SlotIx} {n : Nat}
    (hi : m.slots.get i = .entitled a n) : m.findSlot (·.entitles a) = some i := by
  obtain ⟨j, hj⟩ := Option.ne_none_iff_exists'.1 ((m.findSlot_ne_none_iff (·.entitles a)).2
    ⟨i, (HoldSlot.entitles_iff _ a).2 ⟨n, hi⟩⟩)
  obtain ⟨n', hj'⟩ := (HoldSlot.entitles_iff _ a).1 (Monitor.findSlot_some hj).1
  rw [hj, h.1 j i a (by rw [hj']; rfl) (by rw [hi]; rfl)]

theorem Monitor.cellHeld_eq_false {m : Monitor} {c : Addr} (h : ∀ i b r n, m.slots.get i ≠ .holding b c r n) : m.cellHeld c = false := by
  refine Bool.not_eq_true _ ▸ fun hheld => ?_
  obtain ⟨i, b, r, n, hi⟩ := (m.cellHeld_iff c).1 hheld
  exact h i b r n hi

/-- Settles O17: the slot of an ENTITLED agent is found, and the conversion is the monitor's. -/
theorem guardedReadConverts : Obligations.GuardedReadConverts := by
  unfold Obligations.GuardedReadConverts
  intro s g region lease holdLimit threshold n i hgrant hdisp hregion hkind hlawful hnone hentitled hfree
  have hexec := exec_admission_of_guardedRead hgrant hdisp hnone
  have hread : s.readStep g = s.monitor.convert g.cls.agent g.cls.cell region holdLimit i := by
    rw [s.readStep_eq hregion hkind, Monitor.guardedRead, Monitor.findSlot_entitles hlawful hentitled, Monitor.cellHeld_eq_false hfree]
  rw [hread, State.takeMonitor_of_not_evicted _ rfl] at hexec
  refine ⟨_, hexec, rfl, rfl, rfl, fun a => ?_⟩
  rw [Monitor.convert, Monitor.ctx_setAgentState, Monitor.setSlot_ctx, Monitor.setSlot_ctx, Monitor.ctx_forget, Monitor.ctx_forget]
  by_cases ha : a = g.cls.agent
  · subst ha
    simp
  · simp [ha]

/-! ### A new entry (R27, R28) -/

/-- Room in a lawful table (R27, R28): the agent has 4 entries and its oldest is displaced, or the table is full and its oldest is
evicted, or there is room. -/
theorem Monitor.makeRoom_lawful {m : Monitor} (h : m.tableLawful) (a : Agent) :
    (∃ e, (m.table.filter (fun e => e.agent == a)).length = 4 ∧ m.table.find? (fun e => e.agent == a) = some e ∧
        m.makeRoom a =
          { monitor := (m.removeEntry e.agent e.cell).lose e.agent e.cell .displaced
            records := [.ofDisplace e.agent e.cell (.region e.region)] })
      ∨ (∃ e rest, (m.table.filter (fun e => e.agent == a)).length ≠ 4 ∧ m.table.length = 24 ∧ m.table = e :: rest ∧
        m.makeRoom a =
          { monitor := ({ m with table := rest } : Monitor).lose e.agent e.cell .evicted
            records := [.ofEvict e.agent e.cell (.region e.region) a]
            evicted := true })
      ∨ ((m.table.filter (fun e => e.agent == a)).length ≠ 4 ∧ m.table.length ≠ 24 ∧
        m.makeRoom a = { monitor := m, records := [] }) := by
  obtain ⟨hlength, -, hentries⟩ := h
  have hentries := hentries a
  rw [← List.countP_eq_length_filter]
  unfold Monitor.entriesOf Config.agentEntries at hentries
  unfold Config.tableSize at hlength
  rcases m.makeRoom_cases a with ⟨e, hfull, hfind, heq⟩ | ⟨e, rest, hroom, hfull, htable, heq⟩ | ⟨hroom, hshort, heq⟩
  · exact .inl ⟨e, Nat.le_antisymm hentries hfull, hfind, heq⟩
  · exact .inr (.inl ⟨e, rest, Nat.ne_of_lt hroom, Nat.le_antisymm hlength hfull, htable, heq⟩)
  · exact .inr (.inr ⟨Nat.ne_of_lt hroom, Nat.ne_of_lt hshort, heq⟩)

/-- The contexts after the reading agent forgets the cell and agent `v` loses another. -/
theorem Monitor.ctx_forget_lose (m : Monitor) (a v b : Agent) (c x : Addr) (k : Cause) :
    ((m.forget a c).lose v x k).ctx b =
      { m.ctx b with
        loss :=
          let kept := if b = a then (m.ctx b).loss.filter (fun y => y.cell != c) else (m.ctx b).loss
          if b = v then insertLoss kept x k else kept } := by
  rw [Monitor.ctx_lose, Monitor.ctx_forget, Monitor.ctx_forget]
  by_cases hv : b = v
  · subst hv
    by_cases ha : b = a <;> simp [ha]
  · rw [if_neg hv]
    by_cases ha : b = a
    · subst ha
      simp [hv]
    · simp [hv, ha]

/-- The monitor with a new youngest entry (R27). -/
def Monitor.withEntry (m : Monitor) (a : Agent) (c : Addr) (region lease : Nat) : Monitor :=
  { m with table := m.table ++ [{ agent := a, cell := c, region := region, lease := lease }] }

/-- With an eviction the flag is set behind the records (R28). -/
theorem State.takeMonitor_of_evicted (s : State) {x : MonitorStep} (h : x.evicted = true) :
    s.takeMonitor x = { (s.offerAll x.records).setFlag .eviction with monitor := x.monitor } := by
  have hoffer := s.offerAll_with x.records s.ports s.pointer x.monitor s.tally s.memory
  simp [State.takeMonitor, h, hoffer, State.setFlag]

/-- A guarded read that comes to the fourth case of R23. -/
theorem Monitor.guardedRead_of_none {m : Monitor} {a : Agent} {c : Addr} (hentry : ∀ e ∈ m.table, ¬(e.agent = a ∧ e.cell = c))
    (hholds : ∀ i r n, m.slots.get i ≠ .holding a c r n)
    (hstays : (∀ i n, m.slots.get i ≠ .entitled a n) ∨ ∃ i b r n, m.slots.get i = .holding b c r n) (region lease holdLimit : Nat) :
    m.guardedRead a c region lease holdLimit = m.create a c region lease := by
  rw [Monitor.not_holding_iff, ← m.findSlot_none (·.holds a c)] at hholds
  rw [← Monitor.entry_none_iff] at hentry
  rcases m.guardedRead_cases a c region lease holdLimit with
    ⟨i, hentitled, hfree, -⟩ | ⟨-, ⟨i, hsome, -⟩ | ⟨e, -, hsome, -⟩ | ⟨-, -, heq⟩⟩
  · rcases hstays with hnot | hheld
    · rw [m.not_entitled_iff, ← m.findSlot_none (·.entitles a), hentitled] at hnot
      cases hnot
    · rw [← m.cellHeld_iff, hfree] at hheld
      cases hheld
  · rw [hholds] at hsome
    cases hsome
  · rw [hentry] at hsome
    cases hsome
  · exact heq

/-- Settles O19: room is made by one of three outcomes, and the entry is appended. -/
theorem guardedReadCreates : Obligations.GuardedReadCreates := by
  unfold Obligations.GuardedReadCreates
  intro s g region lease holdLimit threshold removed hgrant hdisp hregion hkind hlawful hnone hentry hholds hstays hremoved
  obtain ⟨htable, -⟩ := hlawful
  have hexec := exec_admission_of_guardedRead hgrant hdisp hnone
  rw [s.readStep_eq hregion hkind, Monitor.guardedRead_of_none hentry hholds hstays, Monitor.create] at hexec
  have hfull : (s.monitor.forget g.cls.agent g.cls.cell).tableLawful := htable
  rcases Monitor.makeRoom_lawful hfull g.cls.agent with
    ⟨e, hfour, hfind, hroom⟩ | ⟨e, rest, hless, hlength, hrest, hroom⟩ | ⟨hless, hshort, hroom⟩ <;> rw [hroom] at hexec
  · rw [Monitor.forget_table] at hfour hfind
    rw [if_pos hfour, hfind] at hremoved
    subst hremoved
    rw [State.takeMonitor_of_not_evicted _ rfl] at hexec
    refine ⟨(((s.monitor.forget g.cls.agent g.cls.cell).removeEntry e.agent e.cell).lose e.agent e.cell .displaced).withEntry
      g.cls.agent g.cls.cell region lease, _, rfl, hexec.trans ?_, ?_, rfl, rfl, fun a => ?_⟩
    · simp only [hfour, if_true]
      rfl
    · have htake := Monitor.removeEntry_table_of_mem htable (List.mem_of_find?_eq_some hfind)
      rw [Monitor.removeEntry_table] at htake
      exact congrArg (· ++ _) htake
    · exact (s.monitor.ctx_forget_lose _ _ _ _ _ .displaced).trans (by simp [hfour])
  · rw [Monitor.forget_table] at hless hlength hrest
    rw [if_neg hless, if_pos hlength, hrest, List.head?_cons] at hremoved
    subst hremoved
    rw [State.takeMonitor_of_evicted _ rfl] at hexec
    refine ⟨(({ s.monitor.forget g.cls.agent g.cls.cell with table := rest } : Monitor).lose e.agent e.cell .evicted).withEntry
      g.cls.agent g.cls.cell region lease, _, rfl, hexec.trans ?_, ?_, rfl, rfl, fun a => ?_⟩
    · simp only [hless, if_false]
      rfl
    · have hpairs := htable.2.1
      rw [hrest, List.pairwise_cons] at hpairs
      have hother : rest.filter (fun x => some x != some e) = rest := List.filter_eq_self.2 fun x hx => by
        have hne : x ≠ e := fun heq => hpairs.1 x hx (heq ▸ ⟨rfl, rfl⟩)
        simpa using hne
      rw [hrest, List.filter_cons_of_neg (by simp), hother]
      rfl
    · exact (s.monitor.ctx_forget_lose _ _ _ _ _ .evicted).trans (by simp [hless])
  · rw [Monitor.forget_table] at hless hshort
    rw [if_neg hless, if_neg hshort] at hremoved
    subst hremoved
    rw [State.takeMonitor_of_not_evicted _ rfl] at hexec
    refine ⟨(s.monitor.forget g.cls.agent g.cls.cell).withEntry g.cls.agent g.cls.cell region lease, _, rfl, hexec, ?_, rfl, rfl, fun a => ?_⟩
    · exact congrArg (· ++ _) (List.filter_eq_self.2 fun _ _ => rfl).symm
    · refine (s.monitor.ctx_forget _ _ _).trans ?_
      by_cases ha : a = g.cls.agent
      · subst ha
        simp
      · simp [ha]

end Sys2Proof.Machine
end

section
-- One theorem at a time: side by side the proofs ask for more threads than the sandbox grants.
set_option Elab.async false

/-! PROOFS. The write halves that issue ahead of a granted request (R91, R119): O16. -/
namespace Sys2Proof.Machine

/-- The write half of a tally as it is issued with a tag (R91). -/
def Tally.writeHalf (t : Tally) (tag : BitVec 5) : Transaction :=
  { tag := tag, dir := .write, addr := t.addr, len := t.width.len, data := t.writeData }

/-- In `x` the write halves that wait in `s` have been issued in their order, as the transactions `halves`. -/
structure State.HalvesIssued (s x : State) (halves : List Transaction) : Prop where
  issued : x.memory.issued = s.memory.issued ++ halves
  length : halves.length = s.tally.waiting.length
  half : ∀ (k : Nat) (i : SlotIx) (h : Transaction), s.tally.waiting[k]? = some i → halves[k]? = some h →
    ∃ t, s.tally.slots.get i = some t ∧ h = t.writeHalf (s.memory.nextTag + BitVec.ofNat 5 k)
      ∧ x.tally.slots.get i = some { t with tag := some h.tag }
  nextTag : x.memory.nextTag = s.memory.nextTag + BitVec.ofNat 5 s.tally.waiting.length
  slots : ∀ j, j ∉ s.tally.waiting → x.tally.slots.get j = s.tally.slots.get j
  outstanding : ∃ es, x.memory.outstanding = s.memory.outstanding ++ es ∧ es.map (·.tx) = halves

theorem tag_add_succ (tag : BitVec 5) (k : Nat) : tag + 1 + BitVec.ofNat 5 k = tag + BitVec.ofNat 5 (k + 1) := by
  apply BitVec.eq_of_toNat_eq
  have hone : (1 : BitVec 5).toNat = 1 := rfl
  simp only [BitVec.toNat_add, BitVec.toNat_ofNat, hone]
  omega

/-- The first write half ahead of the others. -/
theorem State.HalvesIssued.cons {s x : State} {i : SlotIx} {rest : List SlotIx} {t : Tally} {halves : List Transaction}
    (hwaiting : s.tally.waiting = i :: rest) (ht : s.tally.slots.get i = some t) (hi : i ∉ rest)
    (h : s.issueWriteHalf.HalvesIssued x halves) : s.HalvesIssued x (t.writeHalf s.memory.nextTag :: halves) := by
  rcases s.issueWriteHalf_cases with ⟨hw, -⟩ | ⟨j, rest', u, hw, hu, heq⟩ | ⟨j, rest', hw, hu, -⟩ <;> rw [hwaiting] at hw
  · cases hw
  · cases hw
    rw [ht] at hu
    cases hu
    obtain ⟨hissued, hlength, hhalf, hnextTag, hslots, es, houtstanding, hes⟩ := h
    rw [heq] at hissued hlength hhalf hnextTag hslots houtstanding
    refine ⟨?_, by rw [hwaiting]; simpa using hlength, ?_, ?_, ?_, ?_⟩
    · rw [hissued]
      simp [Tally.writeHalf]
    · intro k j h hj hh
      rw [hwaiting] at hj
      cases k with
      | zero =>
        cases hj
        cases hh
        refine ⟨t, ht, by simp, ?_⟩
        rw [hslots i hi]
        simp [Tally.writeHalf]
      | succ k =>
        obtain ⟨u, hu, hh, hx⟩ := hhalf k j h hj hh
        have hji : j ≠ i := fun heq => hi (heq ▸ List.mem_of_getElem? hj)
        refine ⟨u, ?_, ?_, hx⟩
        · rwa [Four.get_set_ne _ _ hji] at hu
        · rw [hh, MemoryPort.issue_nextTag, tag_add_succ]
    · rw [hnextTag, hwaiting, MemoryPort.issue_nextTag, tag_add_succ]
      rfl
    · intro j hj
      rw [hwaiting, List.mem_cons, not_or] at hj
      rw [hslots j hj.2, Four.get_set_ne _ _ hj.1]
    · exact ⟨_ :: es, by rw [houtstanding, MemoryPort.issue_outstanding, List.append_assoc]; rfl, by rw [List.map_cons, hes]; rfl⟩
  · cases hw
    rw [ht] at hu
    cases hu

theorem State.HalvesIssued.of_issueWriteHalves {s : State} (hnodup : s.tally.waiting.Nodup)
    (hslots : ∀ i ∈ s.tally.waiting, ∃ t, s.tally.slots.get i = some t) : ∃ halves, s.HalvesIssued s.issueWriteHalves halves := by
  unfold State.issueWriteHalves
  generalize hw : s.tally.waiting = w at hnodup hslots
  induction w generalizing s with
  | nil =>
    exact ⟨[], by simp, by rw [hw]; rfl, fun k i h hi => by simp [hw] at hi, by simp [hw], fun _ _ => rfl, [], by simp, rfl⟩
  | cons i rest ih =>
    obtain ⟨hi, hrest⟩ := List.nodup_cons.1 hnodup
    obtain ⟨t, ht⟩ := hslots i (List.mem_cons_self ..)
    have hwaiting : s.issueWriteHalf.tally.waiting = rest := by rw [State.issueWriteHalf_waiting, hw]; rfl
    obtain ⟨halves, h⟩ := ih (s := s.issueWriteHalf) hwaiting hrest fun j hj => by
      obtain ⟨u, hu⟩ := hslots j (List.mem_cons_of_mem _ hj)
      have := s.issueWriteHalf_resources.2 j
      rw [hu] at this
      obtain ⟨v, hv, -⟩ := Option.map_eq_some_iff.1 this
      exact ⟨v, hv⟩
    exact ⟨_, .cons hw ht hi h⟩

/-- The tally engine and the memory port after the write halves and a transaction behind them (R119). -/
structure State.IssuedBehind (s : State) (tx : Transaction) (halves : List Transaction) (t : State) : Prop where
  issued : t.memory.issued = s.memory.issued ++ halves ++ [tx]
  tag : tx.tag = s.memory.nextTag + BitVec.ofNat 5 s.tally.waiting.length
  waiting : t.tally.waiting = []
  nextTag : t.memory.nextTag = tx.tag + 1
  outstanding : t.memory.outstanding.map (·.tx) = s.memory.outstanding.map (·.tx) ++ halves ++ [tx]
  oldest : t.memory.outstanding.take s.memory.outstanding.length = s.memory.outstanding

theorem State.IssuedBehind.of_issue {s t : State} {halves : List Transaction} (h : s.HalvesIssued s.issueWriteHalves halves)
    {timeout : Nat} {d : Dir} {addr : Addr} {len : Length} {data : List Byte} {o : Origin}
    (hmemory : t.memory = s.issueWriteHalves.memory.issue timeout d addr len data o) (hwaiting : t.tally.waiting = []) :
    s.IssuedBehind { tag := s.issueWriteHalves.memory.nextTag, dir := d, addr := addr, len := len, data := data } halves t := by
  obtain ⟨es, houtstanding, hes⟩ := h.outstanding
  refine ⟨?_, h.nextTag, hwaiting, by rw [hmemory]; rfl, ?_, ?_⟩
  · rw [hmemory, MemoryPort.issue_issued, h.issued]
  · rw [hmemory, MemoryPort.issue_outstanding, houtstanding, ← hes]
    simp
  · rw [hmemory, MemoryPort.issue_outstanding, houtstanding, List.append_assoc, List.take_left']
    rfl

/-- What the grant of a request leaves behind, if its transaction is the request's own (R14, R119). -/
theorem State.IssuedBehind.of_issueRequest {s t : State} {g : Grant} {halves : List Transaction}
    (h : s.HalvesIssued s.issueWriteHalves halves) (ht : (s.issueRequest g).SameTraffic t) :
    ∃ tx, s.IssuedBehind tx halves t ∧ tx.dir = g.acc.req.dir ∧ tx.addr = g.acc.req.addr ∧ tx.len = g.acc.req.len
      ∧ tx.data = g.acc.req.payload ∧ t.tally = s.issueWriteHalves.tally :=
  ⟨_, .of_issue h ht.memory (by rw [ht.tally]; exact s.issueWriteHalves_waiting), rfl, rfl, rfl, rfl, ht.tally⟩

/-- A granted request that issues and is no tally write: its effects in the tally engine and the memory port, and the blocks that stay where
it is no guarded request. -/
theorem exec_admission_of_issue {s : State} {g : Grant} (hgrant : s.winner = some g)
    (hdisp : g.cls.disp = .forward ∨ g.cls.disp = .tallyRead ∨ g.cls.disp = .guardedRead
      ∨ g.cls.disp = .guardedWrite ∧ s.monitor.noneRunOut
        ∧ (s.monitor.judge g.cls.agent g.cls.cell = .byEntry ∨ ∃ i, s.monitor.judge g.cls.agent g.cls.cell = .byHold i)) :
    ∃ t, exec .admission s = .next t ∧ (s.issueRequest g).SameTraffic t
      ∧ (g.cls.disp = .forward ∨ g.cls.disp = .tallyRead →
          t.monitor = s.monitor ∧ t.capture = s.capture ∧ t.attention = s.attention) := by
  have hforward (h : g.cls.disp = .forward ∨ g.cls.disp = .tallyRead) :
      ∃ t, exec .admission s = .next t ∧ (s.issueRequest g).SameTraffic t
        ∧ (g.cls.disp = .forward ∨ g.cls.disp = .tallyRead →
            t.monitor = s.monitor ∧ t.capture = s.capture ∧ t.attention = s.attention) :=
    ⟨_, exec_admission_of_forward hgrant h, State.sameTraffic_leaveQueue _ g, fun _ => by simp⟩
  rcases hdisp with hdisp | hdisp | hdisp | ⟨hdisp, hnone, hjudge⟩
  · exact hforward (.inl hdisp)
  · exact hforward (.inr hdisp)
  · refine ⟨_, exec_admission hgrant, ?_, by simp [hdisp]⟩
    rcases State.grantEffects_traffic hgrant with ⟨⟨k, h⟩ | h, -⟩ | ⟨-, h⟩ | ⟨h, -⟩
    · rw [hdisp] at h
      cases h
    · rw [hdisp] at h
      cases h
    · exact h
    · rw [hdisp] at h
      cases h
  · rcases hjudge with hjudge | ⟨i, hjudge⟩
    · have hwrite : s.writeStep g =
          { step := s.monitor.commitByEntry g.cls.agent g.cls.cell g.cls.region, refusal := none } := by
        rw [State.writeStep, Monitor.guardedWrite, hjudge]
      exact ⟨_, exec_admission_of_committedWrite hgrant hdisp hnone hwrite rfl, ⟨by simp, by simp, by simp⟩, by simp [hdisp]⟩
    · have hwrite : s.writeStep g =
          { step := s.monitor.commitByHold g.cls.agent g.cls.cell g.cls.region i s.loader.entitlementLimit, refusal := none } := by
        rw [State.writeStep, Monitor.guardedWrite, hjudge]
      exact ⟨_, exec_admission_of_committedWrite hgrant hdisp hnone hwrite rfl, ⟨by simp, by simp, by simp⟩, by simp [hdisp]⟩

/-- Settles O16: a tally write issues its read half behind the others, any other request its own transaction. -/
theorem writeHalvesIssueFirst : Obligations.WriteHalvesIssueFirst := by
  unfold Obligations.WriteHalvesIssueFirst
  intro s g hgrant hlawful hdisp
  obtain ⟨-, hnodup, hwaiting⟩ := hlawful
  obtain ⟨halves, hhalves⟩ := State.HalvesIssued.of_issueWriteHalves hnodup fun i hi => by
    obtain ⟨t, ht, -⟩ := (hwaiting i).1 hi
    exact ⟨t, ht⟩
  by_cases htally : g.cls.disp = .tallyWrite
  · obtain ⟨hoffers, -⟩ := State.offers_of_winner hgrant
    obtain ⟨i, hfree, hexec⟩ := exec_admission_of_tallyWrite hgrant htally
    obtain ⟨-, -, haddr, hlen⟩ := Grant.newTally_fieldsLawful hoffers.classified htally
    have hi (j : SlotIx) (hj : j ∈ s.tally.waiting) : j ≠ i := by
      rintro rfl
      obtain ⟨t, ht, -⟩ := (hwaiting j).1 hj
      rw [hfree] at ht
      cases ht
    have hbehind := State.IssuedBehind.of_issue (t := (s.takeTally g i).leaveQueue g) hhalves rfl s.issueWriteHalves_waiting
    refine ⟨_, halves, _, hexec, hbehind.issued, hhalves.length, fun k j h hj hh => ?_, hbehind.tag, haddr, hlen, fun _ => ⟨rfl, rfl, i, _,
      hfree, Four.get_set_self _ _ _, rfl, rfl, rfl, rfl, rfl, rfl, fun j hj hnot => ?_⟩, fun h => absurd htally h, hbehind.waiting,
      hbehind.nextTag, hbehind.outstanding, hbehind.oldest, fun _ => by simp⟩
    · obtain ⟨x, hx, hhalf, htaken⟩ := hhalves.half k j h hj hh
      exact ⟨x, hx, hhalf, (Four.get_set_ne _ _ (hi j (List.mem_of_getElem? hj))).trans htaken⟩
    · exact (Four.get_set_ne _ _ hj).trans (hhalves.slots j hnot)
  · obtain ⟨t, hexec, htraffic, hframe⟩ := exec_admission_of_issue hgrant
      (hdisp.imp_right fun h => h.imp_right fun h => h.resolve_left htally)
    obtain ⟨tx, hbehind, hdir, haddr, hlen, hdata, ht⟩ := State.IssuedBehind.of_issueRequest hhalves htraffic
    refine ⟨t, halves, tx, hexec, hbehind.issued, hhalves.length, ?_, hbehind.tag, haddr, hlen, fun h => absurd h htally,
      fun _ => ⟨hdir, hdata, ?_⟩, hbehind.waiting, hbehind.nextTag, hbehind.outstanding, hbehind.oldest,
      fun h => hframe (h.imp_right fun h => h.resolve_right htally)⟩
    · rw [ht]
      exact hhalves.half
    · rw [ht]
      exact hhalves.slots

end Sys2Proof.Machine
end

section
-- One theorem at a time: side by side the proofs ask for more threads than the sandbox grants.
set_option Elab.async false

/-! PROOFS. The monitor's part of a port reset (R40, R62, R82): which slots are freed, and who takes them: O6. -/
namespace Sys2Proof.Machine

/-- Of the slots `is` those of the agents of port `p` (R82). -/
def Monitor.slotsOfPort (m : Monitor) (p : PortIx) (is : List SlotIx) : List SlotIx :=
  is.filter fun i => (m.slots.get i).agent?.any fun a => portOf a == p

/-- What a slot becomes that takes the waiter `w`, or none (R71). -/
def seatFor (limit : Nat) (w : Option Agent) : HoldSlot :=
  match w with
  | some w => .entitled w limit
  | none => .free

theorem Monitor.heir_eq (m : Monitor) (limit : Nat) : m.heir limit = seatFor limit m.waitList.head? := by
  unfold Monitor.heir
  cases m.waitList <;> rfl

/-- The slot of an agent of the port is freed and promoted; any other stays (R82). -/
theorem Monitor.freeForReset_cases (p : PortIx) (limit : Nat) (st : MonitorStep) (i : SlotIx) :
    ((st.monitor.slots.get i).agent?.any (fun a => portOf a == p) = true
        ∧ Monitor.freeForReset p limit st i =
          { st with
            monitor := ((st.monitor.setSlot i .free).promote i limit).monitor
            records := st.records ++ ((st.monitor.setSlot i .free).promote i limit).records })
      ∨ ((st.monitor.slots.get i).agent?.any (fun a => portOf a == p) = false ∧ Monitor.freeForReset p limit st i = st) := by
  unfold Monitor.freeForReset
  cases (st.monitor.slots.get i).agent? with
  | none => exact .inr ⟨rfl, rfl⟩
  | some a => by_cases hp : portOf a = p <;> simp [hp]

/-- The monitor and the records after the slots `is` are gone through: the freed slots take the waiters in order (R82). -/
structure Monitor.FreedForReset (p : PortIx) (limit : Nat) (st : MonitorStep) (freed : List SlotIx) (x : MonitorStep) : Prop where
  table : x.monitor.table = st.monitor.table
  waitList : x.monitor.waitList = st.monitor.waitList.drop freed.length
  kept : ∀ i, i ∉ freed → x.monitor.slots.get i = st.monitor.slots.get i
  seats : ∀ (k : Nat) (i : SlotIx), freed[k]? = some i → x.monitor.slots.get i = seatFor limit st.monitor.waitList[k]?
  ctx : ∀ a, x.monitor.ctx a =
    if a ∈ st.monitor.waitList.take freed.length then { st.monitor.ctx a with state := .entitled } else st.monitor.ctx a
  records : x.records = st.records ++ (st.monitor.waitList.take freed.length).map .ofEntitle
  evicted : x.evicted = st.evicted

theorem Monitor.freedForReset (p : PortIx) (limit : Nat) {is : List SlotIx} (hnodup : is.Nodup) (st : MonitorStep) :
    Monitor.FreedForReset p limit st (st.monitor.slotsOfPort p is) (is.foldl (Monitor.freeForReset p limit) st) := by
  induction is generalizing st with
  | nil => exact ⟨rfl, rfl, fun _ _ => rfl, fun k i hi => by simp [Monitor.slotsOfPort] at hi, by simp [Monitor.slotsOfPort],
      by simp [Monitor.slotsOfPort], rfl⟩
  | cons i is ih =>
    obtain ⟨hi, hnodup⟩ := List.nodup_cons.1 hnodup
    rw [List.foldl_cons]
    rcases Monitor.freeForReset_cases p limit st i with ⟨hport, heq⟩ | ⟨hport, heq⟩ <;> rw [heq]
    · obtain ⟨n, hpromote, htable, hslots, hwait, hctx⟩ := st.monitor.promote_spec i limit
      rw [hpromote]
      have hfreed : st.monitor.slotsOfPort p (i :: is) = i :: n.slotsOfPort p is := by
        rw [Monitor.slotsOfPort, List.filter_cons_of_pos (by simpa using hport), Monitor.slotsOfPort]
        refine congrArg _ (List.filter_congr fun j hj => ?_)
        have hji : j ≠ i := fun hji => hi (hji ▸ hj)
        rw [hslots, Four.get_set_ne _ _ hji]
      have hnot : i ∉ n.slotsOfPort p is := fun hmem => hi (List.mem_filter.1 hmem).1
      obtain ⟨htable', hwait', hkept', hseats', hctx', hrecords', hevicted'⟩ := ih hnodup
        { st with monitor := n, records := st.records ++ (st.monitor.waitList.take 1).map .ofEntitle }
      dsimp only at htable' hwait' hkept' hseats' hctx' hrecords' hevicted'
      rw [hfreed]
      refine ⟨htable'.trans htable, ?_, fun j hj => ?_, fun k j hj => ?_, fun a => ?_, ?_, hevicted'⟩
      · rw [hwait', hwait, List.length_cons, List.drop_tail]
      · rw [List.mem_cons, not_or] at hj
        rw [hkept' j hj.2, hslots, Four.get_set_ne _ _ hj.1]
      · cases k with
        | zero =>
          cases hj
          rw [hkept' i hnot, hslots, Four.get_set_self, Monitor.heir_eq, List.head?_eq_getElem?]
        | succ k =>
          rw [hseats' k j hj, hwait, List.getElem?_tail]
      · rw [hctx', hctx, hwait]
        cases st.monitor.waitList with
        | nil => simp
        | cons w rest =>
          by_cases ha : a = w
          · simp [ha]
          · simp [ha, Ne.symm ha]
      · rw [hrecords', hwait]
        cases st.monitor.waitList <;> simp
    · have hfreed : st.monitor.slotsOfPort p (i :: is) = st.monitor.slotsOfPort p is := by
        rw [Monitor.slotsOfPort, List.filter_cons_of_neg (by simpa using hport), Monitor.slotsOfPort]
      rw [hfreed]
      exact ih hnodup st

theorem State.offerAll_concat (s : State) (rs : List Record) (r : Record) : s.offerAll (rs ++ [r]) = (s.offerAll rs).offer r := by
  simp [State.offerAll]

theorem State.offer_attention_congr {s t : State} (hcapture : s.capture = t.capture) (hattention : s.attention = t.attention)
    (r : Record) : (s.offer r).attention = (t.offer r).attention := by
  rw [State.offer_attention, State.offer_attention, hcapture, hattention]

/-- The flags after a run of records depend on the capture unit and the attention logic alone. -/
theorem State.offerAll_attention_congr {s t : State} (hcapture : s.capture = t.capture) (hattention : s.attention = t.attention)
    (rs : List Record) : (s.offerAll rs).attention = (t.offerAll rs).attention := by
  induction rs generalizing s t with
  | nil => exact hattention
  | cons r rs ih =>
    exact ih (s := s.offer r) (t := t.offer r) (by simp [hcapture]) (State.offer_attention_congr hcapture hattention r)

/-- Settles O6: the freed slots take the waiters of other ports, slot by slot. -/
theorem portResetMonitor : Obligations.PortResetMonitor := by
  unfold Obligations.PortResetMonitor
  intro p s left freed hasserted _ hleft hfreed
  subst hleft hfreed
  have hfreed := Monitor.freedForReset p s.loader.entitlementLimit (is := [0, 1, 2, 3]) (by decide)
    { monitor := s.monitor.forgetPort p, records := [] }
  rw [← Monitor.portReset_eq] at hfreed
  obtain ⟨htable, hwait, hkept, hseats, hctx, hrecords, hevicted⟩ := hfreed
  have hmonitor : (s.portReset p).monitor = (s.monitor.portReset p s.loader.entitlementLimit).monitor := by
    simp [State.portReset]
  refine ⟨s.portReset p, exec_portReset hasserted, ?_⟩
  rw [hmonitor]
  refine ⟨htable, hwait, hkept, hseats, fun a => ?_, ?_, ?_⟩
  · rw [hctx, Monitor.ctx_forgetPort]
    by_cases hport : portOf a = p
    · have hnot : a ∉ (s.monitor.forgetPort p).waitList.take ((s.monitor.forgetPort p).slotsOfPort p [0, 1, 2, 3]).length := fun hmem => by
        have := (List.mem_filter.1 (List.mem_of_mem_take hmem)).2
        simp [hport] at this
      rw [if_neg hnot, if_pos hport, if_pos hport]
      rfl
    · rw [if_neg hport, if_neg hport]
      rfl
  · simp only [State.portReset, State.offer_capture, State.takeMonitor_capture, State.offerAll_capture, List.foldl_append]
    rw [State.updPort_monitor, State.updPort_loader, hrecords]
    rfl
  · have hattention (x : State) (hcapture : x.capture = s.capture) (hflags : x.attention = s.attention) :
        ((x.takeMonitor (s.monitor.portReset p s.loader.entitlementLimit)).offer (.ofControl (some (agentOf p 0)) .portReset)).attention
          = (s.offerAll ((s.monitor.portReset p s.loader.entitlementLimit).records
              ++ [.ofControl (some (agentOf p 0)) .portReset])).attention := by
      rw [State.takeMonitor_of_not_evicted _ hevicted, State.offerAll_concat]
      refine State.offer_attention_congr ?_ ?_ _
      · simp [hcapture]
      · exact State.offerAll_attention_congr (s := x) (t := s) hcapture hflags _
    rw [State.portReset]
    dsimp only
    rw [State.updPort_monitor, State.updPort_loader]
    refine (hattention _ ?_ ?_).trans (congrArg (fun rs => (s.offerAll (rs ++ _)).attention) hrecords)
    · rfl
    · rfl

end Sys2Proof.Machine
end

section
-- One theorem at a time: side by side the proofs ask for more threads than the sandbox grants.
set_option Elab.async false

/-! PROOFS. What the classifier hands over (R2, R3, R9, R12, R18): O27; and the retirement of agent requests (R38, R121 to R125): O28 and
O29. -/
namespace Sys2Proof.Machine

/-! ### The classifier (R9, R12, R18) -/

/-- A request has failed no check exactly when its disposition is no answer. -/
theorem Loader.failedCheck_eq_none_iff (l : Loader) (p : PortIx) (r : Req) :
    l.failedCheck p r = none ↔ ∀ k, (l.classify p r).disp ≠ .answer k := by
  rw [l.classify_disp]
  cases l.failedCheck p r with
  | none => cases hkind : (l.classify p r).kind <;> cases hdir : r.dir <;> simp [passedDisposition]
  | some k => simp

/-- A WRITE into the window that passes its checks comes from the owner port (R11). -/
theorem Loader.fenceCheck_window (l : Loader) (p : PortIx) (k : RegionKind) {r : Req} (hwrite : r.dir = .write) :
    l.fenceCheck p .window k r = if p = l.ownp then none else some .fenced := by
  rw [Loader.fenceCheck, hwrite]

/-- The span covers a byte from `low` to `high`. -/
theorem spanCovers_iff (r : Req) {low high : Nat} (h : low ≤ high) :
    (r.firstByte ≤ high ∧ low ≤ r.lastByte) ↔ ∃ b, r.addr.toNat ≤ b ∧ b < r.addr.toNat + r.len.bytes ∧ low ≤ b ∧ b ≤ high := by
  have hpos := Length.bytes_pos r.len
  unfold Req.firstByte Req.lastByte
  constructor
  · rintro ⟨hfirst, hlast⟩
    exact ⟨max r.addr.toNat low, by omega, by omega, by omega, by omega⟩
  · rintro ⟨b, _, _, _, _⟩
    omega

/-- A trigger write is forwarded (R18). -/
theorem Loader.trigger_iff (l : Loader) (p : PortIx) (r : Req) :
    (l.classify p r).trigger = true ↔
      (l.classify p r).disp = .forward ∧ r.dir = .write ∧ l.areaOf r.firstByte = .window
        ∧ r.firstByte ≤ l.policyBase.toNat + 7 ∧ l.policyBase.toNat + 4 ≤ r.lastByte := by
  have htrigger : (l.classify p r).trigger = ((l.failedCheck p r).isNone && l.triggers p (l.areaOf r.firstByte) r) := rfl
  rw [htrigger, Loader.triggers]
  simp only [Bool.and_eq_true, Option.isNone_iff_eq_none, decide_eq_true_eq]
  constructor
  · rintro ⟨hpassed, ⟨⟨⟨hwrite, hwindow⟩, -⟩, hfirst⟩, hlast⟩
    obtain ⟨-, -, -, hdisp⟩ := Loader.disp_of_passed ((l.failedCheck_eq_none_iff p r).1 hpassed)
    have hkind : (l.classify p r).kind = .openRegion := by simp [Loader.classify, hwindow, Loader.kindOf]
    exact ⟨by rw [hdisp, hkind]; rfl, hwrite, hwindow, hfirst, hlast⟩
  · rintro ⟨hdisp, hwrite, hwindow, hfirst, hlast⟩
    have hpassed : ∀ k, (l.classify p r).disp ≠ .answer k := by simp [hdisp]
    obtain ⟨-, -, hfence, -⟩ := Loader.disp_of_passed hpassed
    rw [hwindow, l.fenceCheck_window p _ hwrite] at hfence
    have howner : p = l.ownp := by
      refine Classical.byContradiction fun hne => ?_
      rw [if_neg hne] at hfence
      cases hfence
    exact ⟨(l.failedCheck_eq_none_iff p r).2 hpassed, ⟨⟨⟨hwrite, hwindow⟩, howner⟩, hfirst⟩, hlast⟩

/-- Settles O27: an aligned span stays in one area, and only a forwarded window WRITE can meet the generation word. -/
theorem spanAreaAndTriggerMark : Obligations.SpanAreaAndTriggerMark := by
  unfold Obligations.SpanAreaAndTriggerMark
  intro l p r
  refine ⟨fun hpassed => ?_, ?_, rfl, rfl, ?_, ?_⟩
  · have haligned : r.misaligned = false := by
      cases hm : r.misaligned with
      | false => rfl
      | true => exact absurd (l.disp_of_misaligned p hm) hpassed
    refine ⟨l.areaOf_cellOf r.addr, fun b hfirst hlast => l.areaOf_of_aligned haligned hfirst ?_⟩
    rw [Req.lastByte]
    omega
  · rw [l.trigger_iff, spanCovers_iff r (by omega)]
    rfl
  · have hcell : (l.classify p r).cell = cellOf r.addr := rfl
    rw [hcell, toNat_cellOf]
    omega
  · change r.len.cells = _
    cases r.len <;> rfl

/-! ### Retirement (R121, R124) -/

/-- The response to the oldest transaction, and the timeout of it. -/
theorem exec_memoryResponse {s : State} {e : OutEntry} {rest : List OutEntry} (h : s.memory.outstanding = e :: rest) (okay : Bool)
    (data : BitVec 512) :
    exec (.memoryResponse e.tx.tag okay data) s =
      .next (if okay then s.retireOkay e data else s.retireFailed e .memError .memError) := by
  change execMemoryResponse e.tx.tag okay data s = _
  simp [execMemoryResponse, h]

theorem exec_memoryTimeout {s : State} {e : OutEntry} {rest : List OutEntry} (h : s.memory.outstanding = e :: rest)
    (htimer : s.memory.timer = some 0) : exec .memoryTimeout s = .next (s.retireFailed e .memTimeout .memTimeout) := by
  change execMemoryTimeout s = _
  simp [execMemoryTimeout, State.memoryTimeout, h, htimer]

/-- A retirement, field by field. -/
theorem MemoryPort.retire_eq {m : MemoryPort} {e : OutEntry} {rest : List OutEntry} (h : m.outstanding = e :: rest) (timeout : Nat) :
    m.retire timeout =
      { m with
        outstanding := rest
        timer := if rest = [] then none else if timeout = 0 then none else some timeout } := by
  simp [MemoryPort.retire, h, startTimer, List.isEmpty_iff]

/-! ### The completion of an agent request (R105, R122, R123) -/

theorem EntryState.isPending_eq (e : EntryState) : e.isPending = (e == .pending) := by
  cases e <;> rfl

theorem Port.isPending_eq (q : Port) (id : Nat) : q.isPending id = q.order.any fun x => x.acc.id == id && x.state == .pending := by
  simp only [Port.isPending, EntryState.isPending_eq]

theorem State.completeRequest_eq (s : State) (o : Owner) (id : Nat) (d : Dir) (k : Cause) (data : List Byte) :
    s.completeRequest o id d k data =
      { s with
        ports := s.ports.set (portOf o.agent) ((s.ports.get (portOf o.agent)).complete id { cause := k, data := data })
        monitor := if d = .write ∧ (s.ports.get (portOf o.agent)).isPending id then s.monitor.setVerdict o.agent k else s.monitor } := by
  unfold State.completeRequest
  dsimp only
  split <;> rfl

/-- The monitor after a completed request: a WRITE whose entry was PENDING has set the verdict. -/
theorem Monitor.ctx_completed (m : Monitor) (a b : Agent) (k : Cause) (p : Prop) [Decidable p] :
    (if p then m.setVerdict a k else m).ctx b = if b = a ∧ p then { m.ctx b with verdict := k } else m.ctx b := by
  by_cases hp : p
  · rw [if_pos hp, Monitor.ctx_setVerdict]
    by_cases hb : b = a
    · subst hb
      simp [hp]
    · simp [hb]
  · simp [hp]

/-- The order list after a completion and after an end without a response (R105, R107). -/
theorem Port.complete_eq (q : Port) (id : Nat) (r : Response) :
    q.complete id r =
      { q with
        order := (q.order.map fun x => if x.acc.id = id then { x with state := x.state.complete r } else x).dropWhile
          fun x => x.state == .discard true } := by
  simp only [Port.complete, Port.updEntry, Port.sweep, EntryState.isFinished_eq]

theorem Port.finish_eq (q : Port) (id : Nat) :
    q.finish id =
      { q with
        order := (q.order.map fun x => if x.acc.id = id then { x with state := x.state.finish } else x).dropWhile
          fun x => x.state == .discard true } := by
  simp only [Port.finish, Port.updEntry, Port.sweep, EntryState.isFinished_eq]

/-- Settles O28: the completion block by block, and the order list by the state of each entry. -/
theorem requestCompletesOkay : Obligations.RequestCompletesOkay := by
  unfold Obligations.RequestCompletesOkay
  refine ⟨fun s e rest o id d data q he horigin hq => ?_, fun q id r k list formed ended hlist hp hr hd hp' hr' hd' => ?_⟩
  · subst hq
    refine ⟨if e.tx.dir = .write ∧ (s.ports.get (portOf o.agent)).isPending id then s.monitor.setVerdict o.agent .none else s.monitor,
      ?_, by split <;> rfl, by split <;> rfl, by split <;> rfl, fun a => ?_⟩
    · rw [exec_memoryResponse he, if_pos rfl, State.retireOkay, State.okayCompletion, horigin]
      dsimp only
      rw [if_neg Bool.false_ne_true, State.completeRequest_eq, State.retire, MemoryPort.retire_eq he]
        <;> rfl
    · rw [Monitor.ctx_completed, Port.isPending_eq]
  · have hformed : formed = (·.complete r) := by
      funext x
      cases x with
      | pending => exact hp
      | ready r0 => exact hr r0
      | discard b => exact hd b
    have hended : ended = (·.finish) := by
      funext x
      cases x with
      | pending => exact hp'
      | ready r0 => exact hr' r0
      | discard b => exact hd' b
    subst hformed hended
    refine ⟨by rw [hlist, Port.complete_eq], by rw [hlist, Port.finish_eq], ?_⟩
    rintro rfl
    rw [hlist, Port.answeredHead, Port.complete_eq]

/-! ### The failure of an agent request (R38, R123, R125) -/

/-- The cleanup of a failed guarded read: the agent's entry on the cell goes, where the epoch is still the port's. -/
theorem State.readFailureCleanup_eq (s : State) (o : Owner) :
    s.readFailureCleanup o =
      { s with
        monitor :=
          if o.epoch = (s.ports.get (portOf o.agent)).epoch then s.monitor.removeEntry o.agent o.cell else s.monitor } := by
  unfold State.readFailureCleanup
  split <;> rfl

/-- A failed agent request, block by block. -/
theorem State.failedCompletion_agentRequest {s : State} {e : OutEntry} {o : Owner} {id : Nat} {d : Disposition} {trigger : Bool}
    (horigin : e.origin = .agentRequest o id d trigger) (k : Cause) :
    s.failedCompletion e k =
      { s.offer (.ofFault o.agent o.cell o.region k) with
        ports := s.ports.set (portOf o.agent) ((s.ports.get (portOf o.agent)).complete id { cause := k, data := [] })
        monitor :=
          let m :=
            if e.tx.dir = .write ∧ (s.ports.get (portOf o.agent)).isPending id then s.monitor.setVerdict o.agent k else s.monitor
          if d = .guardedRead ∧ o.epoch = (s.ports.get (portOf o.agent)).epoch then m.removeEntry o.agent o.cell else m } := by
  rw [State.failedCompletion, horigin]
  dsimp only
  rw [State.completeRequest_eq, s.offer_with _ _ s.pointer _ s.tally s.memory, State.readFailureCleanup_eq]
  have hepoch : ((s.ports.set (portOf o.agent) ((s.ports.get (portOf o.agent)).complete id { cause := k, data := [] })).get
      (portOf o.agent)).epoch = (s.ports.get (portOf o.agent)).epoch := by
    rw [Four.get_set_self]
    rfl
  dsimp only
  rw [hepoch]
  by_cases hread : d = .guardedRead <;> simp [hread]

/-- An offer leaves the memory port alone and is not steered by it. -/
theorem State.offer_withMemory (s : State) (r : Record) (mp : MemoryPort) :
    ({ s with memory := mp } : State).offer r = { s.offer r with memory := mp } := by
  refine (s.offer_with r s.ports s.pointer s.monitor s.tally mp).trans ?_
  simp

/-- Settles O29: flag, completion, record and cleanup touch different blocks. -/
theorem requestFails : Obligations.RequestFails := by
  unfold Obligations.RequestFails
  intro s e rest o id d trigger c f k q he horigin hq hcause
  subst hq
  have hexec : exec c s = .next (s.retireFailed e f k) := by
    rcases hcause with ⟨⟨data, rfl⟩, rfl, rfl⟩ | ⟨rfl, htimer, rfl, rfl⟩
    · rw [exec_memoryResponse he, if_neg Bool.false_ne_true]
    · exact exec_memoryTimeout he htimer
  have hoffer : (s.retire.setFlag f).offer (.ofFault o.agent o.cell o.region k) =
      { (s.setFlag f).offer (.ofFault o.agent o.cell o.region k) with
        memory := { s.memory with
          outstanding := rest
          timer := if rest = [] then none else if s.loader.memoryTimeout = 0 then none else some s.loader.memoryTimeout } } := by
    rw [← MemoryPort.retire_eq he]
    exact (s.setFlag f).offer_withMemory _ _
  let m := if e.tx.dir = .write ∧ (s.ports.get (portOf o.agent)).isPending id then s.monitor.setVerdict o.agent k else s.monitor
  have hframe : m.table = s.monitor.table ∧ m.slots = s.monitor.slots ∧ m.waitList = s.monitor.waitList := by
    simp only [m]
    split <;> exact ⟨rfl, rfl, rfl⟩
  obtain ⟨htable, hslots, hwait⟩ := hframe
  refine ⟨if d = .guardedRead ∧ o.epoch = (s.ports.get (portOf o.agent)).epoch then m.removeEntry o.agent o.cell else m,
    ?_, ?_, ?_, ?_, fun a => ?_⟩
  · rw [hexec, State.retireFailed, State.failedCompletion_agentRequest horigin, hoffer]
    rfl
  · split
    · rw [Monitor.removeEntry_table, htable]
      rfl
    · exact htable
  · split <;> exact hslots
  · split <;> exact hwait
  · rw [← Port.isPending_eq, ← Monitor.ctx_completed]
    split <;> rfl

end Sys2Proof.Machine
end

section
-- One theorem at a time: side by side the proofs ask for more threads than the sandbox grants.
set_option Elab.async false

/-! PROOFS. The memory port where nothing is retired (R91, R121): O30; and the tallies from the read half to the end (R85, R89 to R95): O31,
O32 and O33. -/
namespace Sys2Proof.Machine

/-! ### Issues, and events the state does not enable (R91, R119, R121) -/

/-- A response changes nothing unless its tag is that of the oldest outstanding entry. -/
theorem exec_memoryResponse_discarded {s : State} {tag : BitVec 5} (h : ∀ e, s.memory.outstanding.head? = some e → e.tx.tag ≠ tag)
    (okay : Bool) (data : BitVec 512) : exec (.memoryResponse tag okay data) s = .next s := by
  change execMemoryResponse tag okay data s = _
  unfold execMemoryResponse
  cases hout : s.memory.outstanding with
  | nil => rfl
  | cons e rest => exact if_neg (h e (by rw [hout]; rfl))

/-- The places of the bytes, least significant first. -/
theorem toNat_of_getElem?_leBytes {n v k : Nat} {b : Byte} (h : (leBytes n v)[k]? = some b) : b.toNat = v / 256 ^ k % 256 := by
  induction n generalizing v k with
  | zero => simp [leBytes] at h
  | succ n ih =>
    cases k with
    | zero =>
      rw [leBytes, List.getElem?_cons_zero, Option.some.injEq] at h
      simp [← h]
    | succ k =>
      rw [leBytes, List.getElem?_cons_succ] at h
      rw [ih h, Nat.div_div_eq_div_mul, Nat.pow_succ, Nat.mul_comm]

/-- Settles O30: each issue by its branch; what is not enabled leaves the state. -/
theorem issuesAndIdleMemoryPort : Obligations.IssuesAndIdleMemoryPort := by
  unfold Obligations.IssuesAndIdleMemoryPort
  refine ⟨fun tag okay data s h => exec_memoryResponse_discarded h okay data, fun s hidle => ?_, fun s i rest t hwait ht => ?_,
    fun t => ⟨rfl, rfl, ?_, ?_, fun v clamped hphase => ?_⟩, fun s hnone => ?_, fun s b addr rest hb hasked => ?_, fun s hidle => ?_⟩
  · change Host.Outcome.next s.memoryTimeout = _
    rcases s.memoryTimeout_cases with ⟨e, rest, he, htimer, -⟩ | ⟨-, hsame⟩
    · rcases hidle with hne | hnil
      · exact absurd htimer hne
      · simp [hnil] at he
    · rw [hsame]
  · change Host.Outcome.next s.issueWriteHalf = _
    simp [State.issueWriteHalf, hwait, ht, State.issue]
  · rintro hw
    rw [hw]
    exact ⟨rfl, rfl⟩
  · rintro hw
    rw [hw]
    exact ⟨rfl, rfl⟩
  · have hdata : t.writeData = leBytes t.width.bytes v.toNat := by rw [Tally.writeData, hphase]
    rw [hdata]
    exact ⟨leBytes_length _ _, fun k b => toNat_of_getElem?_leBytes⟩
  · change Host.Outcome.next s.issueWriteHalf = _
    simp [State.issueWriteHalf, hnone]
  · change execLoaderReadIssue s = _
    simp [execLoaderReadIssue, hb, hasked, State.placeFree_iff, State.issue]
  · change execLoaderReadIssue s = _
    unfold execLoaderReadIssue
    cases hb : s.loader.reading with
    | none => rfl
    | some b => simp [hidle b hb]

/-! ### The read half (R89 to R91) -/

/-- Settles O31: the retirement and the slot are different blocks. -/
theorem readHalfCompletes : Obligations.ReadHalfCompletes := by
  unfold Obligations.ReadHalfCompletes
  intro s e rest o i t data v clamped he horigin ht hform
  have hretire : s.retire.tally.slots.get i = some t := ht
  rw [exec_memoryResponse he, if_pos rfl, State.retireOkay, State.okayCompletion, horigin, ← MemoryPort.retire_eq he]
  dsimp only
  rw [State.readHalfDone, hretire]
  dsimp only
  rw [← hform]
  cases clamped <;> rfl

/-! ### What a tally forms (R89, R90) -/

theorem TallyWidth.bits_le (w : TallyWidth) : w.bits ≤ 64 := by cases w <;> decide

/-- WRAP adds modulo the width. -/
theorem toNat_wrapSum (w : TallyWidth) (n : Nat) (y : BitVec 64) :
    (wrapSum w (BitVec.ofNat 64 n) y).toNat = (n + y.toNat) % 2 ^ w.bits := by
  rw [wrapSum, BitVec.toNat_setWidth, BitVec.toNat_add, BitVec.toNat_setWidth, BitVec.toNat_setWidth, BitVec.toNat_ofNat]
  cases w <;> simp only [TallyWidth.bits] <;> omega

/-- SATURATE keeps the exact sum in the range of the width. -/
theorem toNat_ofInt_width (w : TallyWidth) (z : Int) : (((BitVec.ofInt w.bits z).setWidth 64).toNat : Int) = z % 2 ^ w.bits := by
  cases w <;> simp [TallyWidth.bits, BitVec.toNat_ofInt] <;> omega

theorem exactSum_eq (w : TallyWidth) (n : Nat) (y : BitVec 64) :
    exactSum w (BitVec.ofNat 64 n) y = (BitVec.ofNat w.bits n).toInt + (BitVec.ofNat w.bits y.toNat).toInt := by
  rw [exactSum, BitVec.setWidth_ofNat_of_le w.bits_le, BitVec.ofNat_toNat]

/-- Settles O32: the sum of the width, and its three places relative to the range. -/
theorem tallyArithmetic : Obligations.TallyArithmetic := by
  unfold Obligations.TallyArithmetic
  intro t bytes x y _ hx hy
  refine ⟨fun hmode => ?_, fun hmode => ?_⟩
  · simp [Tally.form, hmode, toNat_wrapSum]
  · have hform : t.form bytes = saturateSum t.width (BitVec.ofNat 64 (leNat bytes)) t.addend := by rw [Tally.form, hmode]
    have hsum : exactSum t.width (BitVec.ofNat 64 (leNat bytes)) t.addend = x + y := by rw [exactSum_eq, hx, hy]
    rw [hform, saturateSum, hsum, maxSum, minSum]
    have hpos : (0 : Int) < 2 ^ (t.width.bits - 1) := Int.pow_pos (by decide)
    by_cases hhigh : (2 : Int) ^ (t.width.bits - 1) - 1 < x + y
    · rw [if_pos hhigh, toNat_ofInt_width, Int.min_eq_left (by omega), Int.max_eq_right (by omega)]
      simp [hhigh]
    · rw [if_neg hhigh]
      by_cases hlow : x + y < -2 ^ (t.width.bits - 1)
      · rw [if_pos hlow, toNat_ofInt_width, Int.min_eq_right (by omega), Int.max_eq_left (by omega)]
        simp [hlow]
      · rw [if_neg hlow, toNat_ofInt_width, Int.min_eq_right (by omega), Int.max_eq_right (by omega)]
        simp [hlow, hhigh]

/-! ### The end of a tally (R92 to R95) -/

/-- The end of a tally whose half is retired, `x` being the state with the flag of a failure set. -/
theorem State.endTally_retired {x : State} {e : OutEntry} {rest : List OutEntry} (he : x.memory.outstanding = e :: rest) (i : SlotIx)
    (t : Tally) (k : Cause) (r : Record) :
    (x.retire).endTally i t k r =
      { x.offer r with
        memory := { x.memory with
          outstanding := rest
          timer := if rest = [] then none else if x.loader.memoryTimeout = 0 then none else some x.loader.memoryTimeout }
        tally := x.tally.setSlot i none
        ports := x.ports.set (portOf t.agent)
          (if t.epoch = (x.ports.get (portOf t.agent)).epoch then
            (x.ports.get (portOf t.agent)).complete t.id { cause := k, data := [] }
          else (x.ports.get (portOf t.agent)).finish t.id)
        monitor := if t.epoch = (x.ports.get (portOf t.agent)).epoch then x.monitor.setVerdict t.agent k else x.monitor } := by
  rw [State.endTally_eq, ← MemoryPort.retire_eq he, State.retire, x.offer_withMemory]

/-- The three ends by their causes: what the step does to the state with the flag of a failure set. -/
theorem tallyEnd_step {s x : State} {e : OutEntry} {rest : List OutEntry} {i : SlotIx} {t : Tally} {c : Instr} {k : Cause}
    (he : s.memory.outstanding = e :: rest) (ht : s.tally.slots.get i = some t)
    (hcause : (∃ o, e.origin = .tallyWrite o i) ∧ (∃ data, c = .memoryResponse e.tx.tag true data) ∧ k = t.outcome
        ∧ x = s.offer (.ofTally t.agent t.cell (.region t.region) k)
      ∨ (∃ o, e.origin = .tallyRead o i ∨ e.origin = .tallyWrite o i)
        ∧ (∃ data, c = .memoryResponse e.tx.tag false data) ∧ k = .memError
        ∧ x = (s.setFlag .memError).offer (.ofFault t.agent t.cell (.region t.region) k)
      ∨ (∃ o, e.origin = .tallyRead o i ∨ e.origin = .tallyWrite o i)
        ∧ c = .memoryTimeout ∧ s.memory.timer = some 0 ∧ k = .memTimeout
        ∧ x = (s.setFlag .memTimeout).offer (.ofFault t.agent t.cell (.region t.region) k)) :
    ∃ y r, (y = s ∨ ∃ f, y = s.setFlag f) ∧ x = y.offer r ∧ exec c s = .next (y.retire.endTally i t k r) := by
  have hfail (f : CauseFlag) {k : Cause} (h : ∃ o, e.origin = .tallyRead o i ∨ e.origin = .tallyWrite o i) :
      s.retireFailed e f k = (s.setFlag f).retire.endTally i t k (.ofFault t.agent t.cell (.region t.region) k) := by
    have hfail : (s.retire.setFlag f).failTally i k =
        (s.setFlag f).retire.endTally i t k (.ofFault t.agent t.cell (.region t.region) k) := by
      have hslot : (s.retire.setFlag f).tally.slots.get i = some t := ht
      rw [State.failTally, hslot]
      rfl
    obtain ⟨o, horigin | horigin⟩ := h <;> rw [State.retireFailed, State.failedCompletion, horigin] <;> exact hfail
  rcases hcause with ⟨⟨o, horigin⟩, ⟨data, rfl⟩, rfl, rfl⟩ | ⟨horigin, ⟨data, rfl⟩, rfl, rfl⟩ | ⟨horigin, rfl, htimer, rfl, rfl⟩
  · refine ⟨s, _, .inl rfl, rfl, ?_⟩
    have hslot : s.retire.tally.slots.get i = some t := ht
    rw [exec_memoryResponse he, if_pos rfl, State.retireOkay, State.okayCompletion, horigin]
    dsimp only
    rw [State.finishTally, hslot]
  · exact ⟨_, _, .inr ⟨_, rfl⟩, rfl, by rw [exec_memoryResponse he, if_neg Bool.false_ne_true, hfail _ horigin]⟩
  · exact ⟨_, _, .inr ⟨_, rfl⟩, rfl, by rw [exec_memoryTimeout he htimer, hfail _ horigin]⟩

theorem Tally.outcome_eq_saturated_iff (t : Tally) : t.outcome = .saturated ↔ ∃ v, t.phase = .writing v true := by
  unfold Tally.outcome
  cases t.phase with
  | reading => simp
  | writing v clamped => cases clamped <;> simp

theorem Tally.outcome_eq_none_iff (t : Tally) : t.outcome = .none ↔ ¬∃ v, t.phase = .writing v true := by
  unfold Tally.outcome
  cases t.phase with
  | reading => simp
  | writing v clamped => cases clamped <;> simp

/-- Settles O33: the three ends come to one end of the tally in the slot. -/
theorem tallyEnds : Obligations.TallyEnds := by
  unfold Obligations.TallyEnds
  refine ⟨fun s x e rest i t c k q he ht hq hcause => ?_, fun t r hr => ?_⟩
  · subst hq
    obtain ⟨y, r, hy, rfl, hexec⟩ := tallyEnd_step he ht hcause
    refine ⟨if t.epoch = (s.ports.get (portOf t.agent)).epoch then s.monitor.setVerdict t.agent k else s.monitor,
      ?_, by split <;> rfl, by split <;> rfl, by split <;> rfl, fun a => Monitor.ctx_completed _ _ a _ _⟩
    rw [hexec]
    obtain rfl | ⟨f, rfl⟩ := hy
    · rw [State.endTally_retired he]
      rfl
    · rw [State.endTally_retired (x := s.setFlag f) he]
      rfl
  · subst hr
    refine ⟨?_, t.outcome_eq_saturated_iff, t.outcome_eq_none_iff⟩
    by_cases hclamped : ∃ v, t.phase = .writing v true
    · rw [Response.status, t.outcome_eq_saturated_iff.2 hclamped]
      rfl
    · rw [Response.status, t.outcome_eq_none_iff.2 hclamped]
      rfl

end Sys2Proof.Machine
end

section
-- One theorem at a time: side by side the proofs ask for more threads than the sandbox grants.
set_option Elab.async false

/-! PROOFS. The read of the policy block and the reload (R135 to R144): O35, O36, O37 and O38. -/
namespace Sys2Proof.Machine

/-! ### How the read of the block stands after a loader read (R135, R136) -/

/-- A read asked for, or outstanding, keeps the read of the block going. -/
theorem BlockRead.advance_of_busy {b : BlockRead} {quiet : Bool} (h : b.asked ≠ [] ∨ quiet = false) (base : Addr) (g : Nat) :
    b.advance base g quiet = .goesOn b := by
  refine if_pos ?_
  rcases h with h | h <;> simp [h]

theorem BlockRead.okay_of_not_failed {b : BlockRead} {taken bytes : List Byte} (h : b.failed = false)
    (hbytes : bytes = b.bytes ++ taken) : b.okay taken = { b with bytes := bytes } := by
  rw [BlockRead.okay, h, hbytes]
  rfl

/-- With every read retired, a failed one before ends the read of the block. -/
theorem BlockRead.advance_of_failed {b : BlockRead} (hasked : b.asked = []) (hfailed : b.failed = true) (base : Addr) (g : Nat) :
    b.advance base g true = .ended none := by
  simp [BlockRead.advance, hasked, hfailed]

/-- With every read retired and none failed: the final check after the descriptor reads, the early check after the header reads. -/
theorem BlockRead.advance_of_quiet {b : BlockRead} (hasked : b.asked = []) (hfailed : b.failed = false) (base : Addr) (g : Nat) :
    b.advance base g true =
      match b.count with
      | some _ => .ended (validBlock g b.bytes)
      | none =>
        if headerAccepted b.bytes then
          if blockCount b.bytes = 0 then .ended (validBlock g b.bytes)
          else .goesOn { b with asked := descriptorReads base (blockCount b.bytes), count := some (blockCount b.bytes) }
        else .ended none := by
  simp only [BlockRead.advance, hasked, hfailed]
  rfl

/-- A block that fails the early check is not valid. -/
theorem validBlock_of_not_headerAccepted {bytes : List Byte} (h : headerAccepted bytes = false) (g : Nat) : validBlock g bytes = none := by
  simp [validBlock, h]

/-- Does the outstanding list behind the entry hold no loader read? -/
theorem quiet_iff (rest : List OutEntry) : (!rest.any fun e => e.origin.isLoader) = true ↔ ∀ x ∈ rest, x.origin ≠ .loaderRead := by
  have horigin (o : Origin) : o.isLoader = true ↔ o = .loaderRead := by cases o <;> simp [Origin.isLoader]
  simp [← horigin]

theorem State.retire_outstanding (s : State) {e : OutEntry} {rest : List OutEntry} (he : s.memory.outstanding = e :: rest) :
    s.retire.memory.outstanding = rest := by
  rw [State.retire, MemoryPort.retire_eq he]

/-! ### What the loader does with the retirement of its read -/

/-- The read of the block goes on: the rest of the loader stays. -/
theorem State.loaderRetired_goesOn {s : State} {f : BlockRead → BlockRead} {b b1 : BlockRead} (hb : s.loader.reading = some b)
    (h : (f b).advance s.loader.policyBase s.loader.policyGranule (!s.memory.outstanding.any fun e => e.origin.isLoader) = .goesOn b1) :
    s.loaderRetired f = { s with loader := { s.loader with reading := some b1 } } := by
  simp [State.loaderRetired, hb, h]

/-- The read of the block ends. -/
theorem State.loaderRetired_ended {s : State} {f : BlockRead → BlockRead} {b : BlockRead} {block : Option Block}
    (hb : s.loader.reading = some b)
    (h : (f b).advance s.loader.policyBase s.loader.policyGranule (!s.memory.outstanding.any fun e => e.origin.isLoader)
      = .ended block) : s.loaderRetired f = s.endRead block := by
  simp [State.loaderRetired, hb, h]

/-- An offer leaves the monitor, the memory port and the loader alone and is not steered by them. -/
theorem State.offer_withLoader (s : State) (r : Record) (m : Monitor) (mp : MemoryPort) (l : Loader) :
    ({ s with monitor := m, memory := mp, loader := l } : State).offer r = { s.offer r with monitor := m, memory := mp, loader := l } := by
  unfold State.offer
  by_cases h : s.capture.freezesOn r = true <;> simp only [h] <;> rfl

@[inherit_doc State.offer_withLoader]
theorem State.offer_withLoader_sameMonitor (s : State) (r : Record) (mp : MemoryPort) (l : Loader) :
    ({ s with memory := mp, loader := l } : State).offer r = { s.offer r with memory := mp, loader := l } := by
  refine (s.offer_withLoader r s.monitor mp l).trans ?_
  simp

theorem exec_loaderRead_okay {s : State} {e : OutEntry} {rest : List OutEntry} (he : s.memory.outstanding = e :: rest)
    (horigin : e.origin = .loaderRead) (data : BitVec 512) :
    exec (.memoryResponse e.tx.tag true data) s =
      .next (s.retire.loaderRetired fun b => b.okay (laneBytes e.tx.len.bytes data)) := by
  rw [exec_memoryResponse he, if_pos rfl, State.retireOkay, State.okayCompletion, horigin]

theorem State.retireFailed_loaderRead {e : OutEntry} (horigin : e.origin = .loaderRead) (s : State) (f : CauseFlag) (k : Cause) :
    s.retireFailed e f k = (s.setFlag f).retire.loaderRetired BlockRead.fail := by
  rw [State.retireFailed, State.failedCompletion, horigin]
  rfl

/-- Settles O35: the read of the block goes on by one of its two branches. -/
theorem loaderReadGoesOn : Obligations.LoaderReadGoesOn := by
  unfold Obligations.LoaderReadGoesOn
  intro s e rest b b1 data bytes he horigin hb hfailed hbytes hcase
  have hokay := BlockRead.okay_of_not_failed hfailed hbytes
  have hout := s.retire_outstanding he
  rw [exec_loaderRead_okay he horigin, ← MemoryPort.retire_eq he]
  refine congrArg Host.Outcome.next (State.loaderRetired_goesOn (s := s.retire) hb ?_)
  rw [hokay, hout]
  rcases hcase with ⟨hbusy, rfl⟩ | ⟨hasked, hquiet, hcount, hsig, hone, hsixteen, rfl⟩
  · refine BlockRead.advance_of_busy ?_ _ _
    rcases hbusy with hasked | ⟨x, hx, hloader⟩
    · exact .inl hasked
    · refine .inr ?_
      refine Classical.byContradiction fun hquiet => ?_
      exact (quiet_iff rest).1 (by simpa using hquiet) x hx hloader
  · rw [(quiet_iff rest).2 hquiet, BlockRead.advance_of_quiet (b := { b with bytes := bytes }) hasked hfailed]
    dsimp only
    have hdeclared : blockCount bytes ≠ 0 := by
      change leField bytes 12 1 ≠ 0
      omega
    rw [hcount, if_pos ((headerAccepted_iff bytes).2 ⟨hsig, hsixteen⟩), if_neg hdeclared, hfailed]
    rfl

/-- Settles O36: the read of the block ends with what its last check gives. -/
theorem blockReadEnds : Obligations.BlockReadEnds := by
  unfold Obligations.BlockReadEnds
  intro s x e rest b data bytes block live m he horigin hquiet hb hfailed hasked hbytes hblock hlive hpart
  have hokay := BlockRead.okay_of_not_failed hfailed hbytes
  have hout := s.retire_outstanding he
  have hadvance : ({ b with bytes := bytes } : BlockRead).advance s.loader.policyBase s.loader.policyGranule true = .ended block := by
    rw [BlockRead.advance_of_quiet (b := { b with bytes := bytes }) hasked hfailed]
    dsimp only
    rcases hblock with ⟨hcount, rfl⟩ | ⟨hcount, hempty, rfl⟩ | ⟨hcount, hbad, rfl⟩
    · obtain ⟨c, hc⟩ := Option.ne_none_iff_exists'.1 hcount
      rw [hc]
    · rw [hcount]
      have hzero : blockCount bytes = 0 := hempty
      by_cases hheader : headerAccepted bytes = true
      · simp [hheader, hzero]
      · rw [Bool.not_eq_true] at hheader
        simp [hheader, validBlock_of_not_headerAccepted hheader]
    · rw [hcount]
      have hheader : ¬headerAccepted bytes = true := by
        rw [headerAccepted_iff]
        omega
      simp [hheader]
  rw [exec_loaderRead_okay he horigin, ← MemoryPort.retire_eq he,
    State.loaderRetired_ended (s := s.retire) hb (by rw [hokay, hout, (quiet_iff rest).2 hquiet]; exact hadvance)]
  refine congrArg Host.Outcome.next ?_
  subst hlive
  rcases hpart with ⟨hpart, rfl, rfl⟩ | ⟨hpart, rfl, rfl⟩
  · have hpart' : s.retire.loader.part = .loading := hpart
    cases block with
    | none =>
      simp only [State.endRead, hpart', State.run_offerControl]
      exact (s.setFlag .loadInvalid).offer_withLoader _ _ _ _
    | some k =>
      simp only [State.endRead, hpart', State.run_offerControl]
      exact s.offer_withLoader _ _ _ _
  · have hpart' : s.retire.loader.part = .fetching := hpart
    cases block with
    | none =>
      simp only [State.endRead, hpart', State.run_offerControl]
      exact (s.setFlag .reloadRejected).offer_withLoader _ _ _ _
    | some k =>
      simp only [State.endRead, hpart', State.run_offerControl]
      exact (s.setFlag .reloadApplied).offer_withLoader _ _ _ _

/-- Settles O37: a failed read withdraws the rest, and the last one retired ends invalid. -/
theorem loaderReadFails : Obligations.LoaderReadFails := by
  unfold Obligations.LoaderReadFails
  intro s x e rest b c he horigin hb hcause
  obtain ⟨hx, f, hf, hexec⟩ : ((x = s ∨ ∃ g, x = s.setFlag g)) ∧ ∃ f : BlockRead → BlockRead,
      f b = { b with asked := [], failed := true } ∧ exec c s = .next (x.retire.loaderRetired f) := by
    rcases hcause with ⟨⟨data, rfl⟩, rfl⟩ | ⟨rfl, htimer, rfl⟩ | ⟨⟨data, rfl⟩, hfailed, hasked, rfl⟩
    · refine ⟨.inr ⟨_, rfl⟩, BlockRead.fail, rfl, ?_⟩
      rw [exec_memoryResponse he, if_neg Bool.false_ne_true, State.retireFailed_loaderRead horigin]
    · refine ⟨.inr ⟨_, rfl⟩, BlockRead.fail, rfl, ?_⟩
      rw [exec_memoryTimeout he htimer, State.retireFailed_loaderRead horigin]
    · refine ⟨.inl rfl, _, ?_, exec_loaderRead_okay he horigin data⟩
      rw [BlockRead.okay, if_pos hfailed, ← hasked, ← hfailed]
  have hmemory : x.memory = s.memory := by obtain rfl | ⟨g, rfl⟩ := hx <;> rfl
  have hloader : x.loader = s.loader := by obtain rfl | ⟨g, rfl⟩ := hx <;> rfl
  have hout : x.retire.memory.outstanding = rest := x.retire_outstanding (hmemory ▸ he)
  have hreading : x.retire.loader.reading = some b := by rw [State.retire, hloader, hb]
  rw [hexec, ← MemoryPort.retire_eq he]
  refine ⟨fun ⟨y, hy, hyloader⟩ => ?_, fun g k hquiet hpart => ?_⟩
  · rw [State.loaderRetired_goesOn hreading (b1 := { b with asked := [], failed := true })]
    · rw [State.retire, hmemory, hloader]
    · rw [hf, hout]
      refine BlockRead.advance_of_busy (.inr ?_) _ _
      refine Classical.byContradiction fun hquiet => ?_
      exact (quiet_iff rest).1 (by simpa using hquiet) y hy hyloader
  · rw [State.loaderRetired_ended hreading (block := none)]
    · rcases hpart with ⟨hpart, rfl, rfl⟩ | ⟨hpart, rfl, rfl⟩
      · have hpart' : x.retire.loader.part = .loading := by rw [State.retire, hloader, hpart]
        simp only [State.endRead, hpart', State.run_offerControl]
        rw [← hmemory, ← hloader]
        exact congrArg Host.Outcome.next ((x.setFlag .loadInvalid).offer_withLoader_sameMonitor _ _ _)
      · have hpart' : x.retire.loader.part = .fetching := by rw [State.retire, hloader, hpart]
        simp only [State.endRead, hpart', State.run_offerControl]
        rw [← hmemory, ← hloader]
        exact congrArg Host.Outcome.next ((x.setFlag .reloadRejected).offer_withLoader_sameMonitor _ _ _)
    · rw [hf, hout, (quiet_iff rest).2 hquiet]
      exact BlockRead.advance_of_failed rfl rfl _ _

/-! ### The start of a reload (R140, R141) -/

/-- Nothing is to be drained exactly when nothing is outstanding and every tally slot is FREE (R141). -/
theorem State.drained_iff (s : State) : s.drained = true ↔ s.memory.outstanding = [] ∧ s.tally.slots = Four.all none := by
  constructor
  · intro h
    refine ⟨?_, Four.eq_of_get fun i => by rw [State.slots_of_drained h, Four.get_all]⟩
    rw [State.drained, Bool.and_eq_true, List.isEmpty_iff] at h
    exact h.1
  · rintro ⟨hnone, hfree⟩
    simp only [State.drained, hnone, TallyEngine.inUse, hfree]
    rfl

/-- Settles O38: the trigger changes the loader alone, behind the completion of a forwarded write. -/
theorem reloadStarts : Obligations.ReloadStarts := by
  unfold Obligations.ReloadStarts
  refine ⟨fun s t0 e rest o id d data start he horigin hstart h0 => ?_, fun s start hstart => ?_⟩
  · subst hstart
    let e0 : OutEntry := { e with origin := .agentRequest o id d false }
    let s0 : State := { s with memory := { s.memory with outstanding := e0 :: rest } }
    have hretire : s0.retire = s.retire := by
      rw [State.retire, State.retire, MemoryPort.retire_eq he, MemoryPort.retire_eq (m := s0.memory) rfl]
    have h0' : exec (.memoryResponse e.tx.tag true data) s0 = .next (s0.retire.okayCompletion e0 data) :=
      exec_memoryResponse (e := e0) rfl true data
    have ht0 : t0 = s0.retire.okayCompletion e0 data := Host.Outcome.next.inj (h0.symm.trans h0')
    have hexec : exec (.memoryResponse e.tx.tag true data) s = .next t0.reloadTrigger := by
      rw [exec_memoryResponse he, if_pos rfl, State.retireOkay, ht0, hretire, State.okayCompletion, horigin]
      rfl
    have hloader : t0.loader = s.loader := by
      rw [ht0, hretire]
      exact State.completeRequest_loader _ _ _ _ _ _
    have hout : t0.memory.outstanding = rest := by
      rw [ht0, hretire, ← s.retire_outstanding he]
      exact congrArg MemoryPort.outstanding (State.completeRequest_memory _ _ _ _ _ _)
    have htally : t0.tally = s.tally := by
      rw [ht0, hretire]
      exact State.completeRequest_tally _ _ _ _ _ _
    rw [hexec, State.reloadTrigger, hloader]
    cases s.loader.part with
    | running => simp only [t0.drained_iff, hout, htally]; rfl
    | loading => rfl
    | draining => rfl
    | fetching => rfl
  · subst hstart
    change execFetching s = _
    simp only [execFetching, s.drained_iff]
    rfl

end Sys2Proof.Machine
end

section
-- One theorem at a time: side by side the proofs ask for more threads than the sandbox grants.
set_option Elab.async false

/-! PROOFS. The tick and the expiries it leaves (R30, R72, R79): O39; the expiries of slots (R71, R75, R79): O41; and the drop of the
monitor (R41, R63, R83): O45. -/
namespace Sys2Proof.Machine

/-! ### What ran out, taken before a tick and before a guarded request (R30, R72, R79) -/

/-- A lease expiry removes an entry that ran out, if it stands, and keeps the rest of the table. -/
theorem State.leaseExpiry_table {s : State} (htable : s.monitor.tableLawful) {e : TableEntry} (hlease : e.lease = 0) :
    (s.leaseExpiry e.agent e.cell).monitor.table.Sublist s.monitor.table ∧ e ∉ (s.leaseExpiry e.agent e.cell).monitor.table := by
  rw [State.leaseExpiry, State.takeMonitor_monitor]
  by_cases he : e ∈ s.monitor.table
  · rw [Monitor.leaseExpiry_of_ranOut htable he hlease, Monitor.lose_table]
    exact ⟨List.filter_sublist, fun hmem => ((Monitor.mem_removeEntry _ _ _ _).1 hmem).2 ⟨rfl, rfl⟩⟩
  · rcases s.monitor.leaseExpiry_cases e.agent e.cell with ⟨f, -, -, hexpiry⟩ | ⟨-, hexpiry⟩ <;> rw [hexpiry]
    · exact ⟨List.filter_sublist, fun hmem => he ((Monitor.mem_removeEntry _ _ _ _).1 hmem).1⟩
    · exact ⟨List.Sublist.refl _, he⟩

/-- After the lease expiries of entries that ran out, none of them stands, and nothing else was added. -/
theorem State.foldl_leaseExpiry_table {es : List TableEntry} (hlease : ∀ e ∈ es, e.lease = 0) {s : State}
    (htable : s.monitor.tableLawful) :
    (es.foldl (fun x e => x.leaseExpiry e.agent e.cell) s).monitor.table.Sublist s.monitor.table
      ∧ ∀ e ∈ es, e ∉ (es.foldl (fun x e => x.leaseExpiry e.agent e.cell) s).monitor.table := by
  induction es generalizing s with
  | nil => exact ⟨List.Sublist.refl _, fun e he => absurd he List.not_mem_nil⟩
  | cons e es ih =>
    obtain ⟨hsub, hgone⟩ := State.leaseExpiry_table htable (hlease e List.mem_cons_self)
    obtain ⟨hsub', hgone'⟩ := ih (fun f hf => hlease f (List.mem_cons_of_mem _ hf)) (s := s.leaseExpiry e.agent e.cell)
      (Monitor.tableLawful_of_sublist htable hsub)
    refine ⟨hsub'.trans hsub, fun f hf => ?_⟩
    rcases List.mem_cons.1 hf with rfl | hf
    · exact fun hmem => hgone (hsub'.subset hmem)
    · exact hgone' f hf

/-- A waiter that takes a slot has its entitlement before it. -/
theorem Monitor.heir_ranOut (m : Monitor) {limit : Nat} (h : 0 < limit) : (m.heir limit).ranOut = false := by
  unfold Monitor.heir
  split
  · rfl
  · exact beq_eq_false_iff_ne.2 (Nat.pos_iff_ne_zero.1 h)

/-- The two expiries of a slot leave the table and the other slots, and a slot that has not run out. -/
theorem State.slotExpiries_spec (s : State) (i : SlotIx) (hlimit : 0 < s.loader.entitlementLimit) :
    ((s.entitlementExpiry i).holdExpiry i).monitor.table = s.monitor.table
      ∧ (∀ j, j ≠ i → ((s.entitlementExpiry i).holdExpiry i).monitor.slots.get j = s.monitor.slots.get j)
      ∧ (((s.entitlementExpiry i).holdExpiry i).monitor.slots.get i).ranOut = false := by
  have hentitled : (s.entitlementExpiry i).monitor.table = s.monitor.table
      ∧ (∀ j, j ≠ i → (s.entitlementExpiry i).monitor.slots.get j = s.monitor.slots.get j)
      ∧ ∀ a, (s.entitlementExpiry i).monitor.slots.get i ≠ .entitled a 0 := by
    rw [State.entitlementExpiry, State.takeMonitor_monitor]
    rcases s.monitor.entitlementExpiry_cases i s.loader.entitlementLimit with ⟨a, -, hexpiry⟩ | ⟨hrunning, hexpiry⟩ <;> rw [hexpiry]
    · obtain ⟨n, hrelease, htable, hslots, -⟩ := s.monitor.releaseSlot_spec i a none .expired s.loader.entitlementLimit
      rw [hrelease]
      refine ⟨htable, fun j hj => by rw [hslots, Four.get_set_ne _ _ hj], fun b hb => ?_⟩
      rw [hslots, Four.get_set_self] at hb
      have hran := s.monitor.heir_ranOut hlimit
      rw [hb] at hran
      cases hran
    · exact ⟨rfl, fun _ _ => rfl, hrunning⟩
  obtain ⟨htable, hothers, hnone⟩ := hentitled
  rw [State.holdExpiry, State.takeMonitor_monitor, State.entitlementExpiry_loader]
  rcases (s.entitlementExpiry i).monitor.holdExpiry_cases i s.loader.entitlementLimit with ⟨a, c, r, -, hexpiry⟩ | ⟨hrunning, hexpiry⟩ <;>
    rw [hexpiry]
  · obtain ⟨n, hrelease, htable', hslots', -⟩ :=
      ((s.entitlementExpiry i).monitor.lose a c .expired).releaseSlot_spec i a (some (c, .region r)) .expired s.loader.entitlementLimit
    rw [hrelease]
    refine ⟨htable'.trans htable, fun j hj => ?_, ?_⟩
    · rw [hslots', Four.get_set_ne _ _ hj]
      exact hothers j hj
    · rw [hslots', Four.get_set_self]
      exact Monitor.heir_ranOut _ hlimit
  · refine ⟨htable, hothers, ?_⟩
    have h0 := hnone
    have h1 := hrunning
    revert h0 h1
    cases hslot : (s.entitlementExpiry i).monitor.slots.get i with
    | free => exact fun _ _ => rfl
    | entitled a n => exact fun h0 _ => beq_eq_false_iff_ne.2 fun hn => h0 a (hn ▸ rfl)
    | holding a c r n => exact fun _ h1 => beq_eq_false_iff_ne.2 fun hn => h1 a c r (hn ▸ rfl)

/-- After the expiries of the slots listed, none of those has run out, and no other was touched. -/
theorem State.foldl_slotExpiries_spec (is : List SlotIx) {s : State} (hlimit : 0 < s.loader.entitlementLimit) :
    (is.foldl (fun x i => (x.entitlementExpiry i).holdExpiry i) s).monitor.table = s.monitor.table
      ∧ ∀ j, j ∈ is ∨ (s.monitor.slots.get j).ranOut = false →
        ((is.foldl (fun x i => (x.entitlementExpiry i).holdExpiry i) s).monitor.slots.get j).ranOut = false := by
  induction is generalizing s with
  | nil => exact ⟨rfl, fun j hj => hj.resolve_left List.not_mem_nil⟩
  | cons i is ih =>
    obtain ⟨htable, hothers, hslot⟩ := s.slotExpiries_spec i hlimit
    obtain ⟨htable', hslots'⟩ := ih (s := (s.entitlementExpiry i).holdExpiry i) (by simpa using hlimit)
    refine ⟨htable'.trans htable, fun j hj => hslots' j ?_⟩
    by_cases hji : j = i
    · exact .inr (hji ▸ hslot)
    · rw [hothers j hji]
      exact hj.imp_left fun hmem => (List.mem_cons.1 hmem).resolve_left hji

/-- Once what ran out is taken, nothing that ran out stands. -/
theorem State.takeRunOuts_noneRunOut {s : State} (hlawful : s.monitor.lawful) (hlimit : 0 < s.loader.entitlementLimit) :
    s.takeRunOuts.monitor.noneRunOut := by
  obtain ⟨hsub, hgone⟩ := State.foldl_leaseExpiry_table (es := s.monitor.table.filter fun e => e.lease == 0) (s := s)
    (fun e he => by simpa using (List.mem_filter.1 he).2) hlawful.1
  obtain ⟨htable, hslots⟩ := State.foldl_slotExpiries_spec [0, 1, 2, 3]
    (s := (s.monitor.table.filter fun e => e.lease == 0).foldl (fun x e => x.leaseExpiry e.agent e.cell) s)
    (by rw [(State.foldl_leaseExpiry_frame _ s).2.2.2.2.1]; exact hlimit)
  refine ⟨fun e he hlease => ?_, fun i => hslots i (.inl (mem_slots i))⟩
  rw [State.takeRunOuts, htable] at he
  exact hgone e (List.mem_filter.2 ⟨hsub.subset he, by simp [hlease]⟩) he

/-- What the arbiter grants depends on the front ends, the pointer, the tally engine, the memory port, the loader and the pause. -/
theorem State.winner_takeRunOuts (s : State) : s.takeRunOuts.winner = s.winner := by
  unfold State.winner State.candidate State.admits State.resourcesFree State.placeFree State.placesUsed
  simp

/-- A guarded request is granted as it is after the expiries. -/
theorem exec_admission_takeRunOuts {s : State} {g : Grant} (hgrant : s.winner = some g)
    (hdisp : g.cls.disp = .guardedRead ∨ g.cls.disp = .guardedWrite) (hnone : s.takeRunOuts.monitor.noneRunOut) :
    exec .admission s = exec .admission s.takeRunOuts := by
  have hcommute : (s.takeRunOuts.leaveQueue g).takeRunOuts = (s.leaveQueue g).takeRunOuts := by
    rw [State.takeRunOuts_leaveQueue, State.takeRunOuts_of_noneRunOut hnone, State.takeRunOuts_leaveQueue]
  rw [exec_admission hgrant, exec_admission (s.winner_takeRunOuts.trans hgrant), State.grantEffects, State.grantEffects]
  rcases hdisp with hdisp | hdisp <;> simp only [hdisp, hcommute]

/-- The expiries of `due` taken as commands are the expiries taken before a tick. -/
theorem State.afterAll_due (s : State) :
    s.afterAll ((s.monitor.table.filter (fun e => e.lease == 0)).map (fun e => Instr.leaseExpiry e.agent e.cell)
      ++ ([0, 1, 2, 3] : List SlotIx).flatMap (fun i => [Instr.entitlementExpiry i, Instr.holdLimitExpiry i])) = s.takeRunOuts := by
  rw [State.afterAll, List.foldl_append, List.foldl_map]
  rfl

/-! ### The expiries leave the time base -/

theorem State.foldl_timeBase {α : Type} {f : State → α → State} (h : ∀ x a, (f x a).capture.timeBase = x.capture.timeBase) (l : List α)
    (s : State) : (l.foldl f s).capture.timeBase = s.capture.timeBase := by
  induction l generalizing s with
  | nil => rfl
  | cons a l ih => exact (ih (f s a)).trans (h s a)

theorem State.takeRunOuts_timeBase (s : State) : s.takeRunOuts.capture.timeBase = s.capture.timeBase := by
  rw [State.takeRunOuts, State.foldl_timeBase fun x i => by simp [State.holdExpiry, State.entitlementExpiry],
    State.foldl_timeBase fun x e => by simp [State.leaseExpiry]]

theorem State.endTally_timeBase (s : State) (i : SlotIx) (t : Tally) (k : Cause) (r : Record) :
    (s.endTally i t k r).capture.timeBase = s.capture.timeBase := by
  simp [State.endTally_eq]

theorem State.failTally_timeBase (s : State) (i : SlotIx) (k : Cause) : (s.failTally i k).capture.timeBase = s.capture.timeBase := by
  unfold State.failTally
  split
  · exact State.endTally_timeBase ..
  · rfl

theorem State.endRead_timeBase (s : State) (block : Option Block) : (s.endRead block).capture.timeBase = s.capture.timeBase := by
  unfold State.endRead
  split <;> simp [State.run]

theorem State.loaderRetired_timeBase (s : State) (f : BlockRead → BlockRead) :
    (s.loaderRetired f).capture.timeBase = s.capture.timeBase := by
  unfold State.loaderRetired
  split
  · rfl
  · split
    · rfl
    · exact State.endRead_timeBase ..

theorem State.retireFailed_timeBase (s : State) (e : OutEntry) (f : CauseFlag) (k : Cause) :
    (s.retireFailed e f k).capture.timeBase = s.capture.timeBase := by
  rw [State.retireFailed]
  cases horigin : e.origin with
  | agentRequest o id d trigger => simp [State.failedCompletion_agentRequest horigin, State.retire]
  | tallyRead o i => rw [State.failedCompletion, horigin]; exact State.failTally_timeBase _ _ _
  | tallyWrite o i => rw [State.failedCompletion, horigin]; exact State.failTally_timeBase _ _ _
  | loaderRead => rw [State.failedCompletion, horigin]; exact State.loaderRetired_timeBase _ _

theorem State.memoryTimeout_timeBase (s : State) : s.memoryTimeout.capture.timeBase = s.capture.timeBase := by
  rcases s.memoryTimeout_cases with ⟨e, rest, -, -, h⟩ | ⟨-, h⟩ <;> rw [h]
  exact s.retireFailed_timeBase e _ _

/-- Settles O39: the expiries of `due` are those the tick takes first, and none of them is left after it. -/
theorem tickCountsDown : Obligations.TickCountsDown := by
  unfold Obligations.TickCountsDown
  intro s u v due hdue hu hv
  rw [hdue, s.afterAll_due] at hu
  have hv : v = u.memoryTimeout := hv
  subst hu hv
  refine ⟨⟨s.takeRunOuts.memoryTimeout.monitor.tick, ?_, rfl, fun i => ?_, rfl, fun a => rfl⟩, State.takeRunOuts_of_noneRunOut,
    fun htimer => ?_, fun hlawful hlimit => ?_⟩
  · rw [← s.takeRunOuts_timeBase, ← s.takeRunOuts.memoryTimeout_timeBase]
    rfl
  · refine (Four.get_map _ _ i).trans ?_
    cases s.takeRunOuts.memoryTimeout.monitor.slots.get i <;> rfl
  · rcases s.takeRunOuts.memoryTimeout_cases with ⟨e, rest, -, hzero, -⟩ | ⟨-, hsame⟩
    · rw [State.takeRunOuts_memory] at hzero
      exact absurd hzero htimer
    · exact hsame
  · have hnone := State.takeRunOuts_noneRunOut hlawful hlimit
    exact ⟨hnone, s.takeRunOuts_memory, s.takeRunOuts_ports, s.takeRunOuts_loader, fun g hgrant hdisp =>
      ⟨s.winner_takeRunOuts.trans hgrant, exec_admission_takeRunOuts hgrant hdisp hnone⟩⟩

/-! ### The expiries of slots (R71, R75, R79) -/

/-- An agent that occupies a slot does not wait (R65, R70). -/
theorem Monitor.notMem_waitList_of_seated {m : Monitor} (h : m.lawful) {i : SlotIx} {a : Agent}
    (hseat : (m.slots.get i).agent? = some a) : a ∉ m.waitList := by
  obtain ⟨-, -, ⟨-, -, hentitled, hholding⟩, ⟨-, hwaiting, -⟩, -⟩ := h
  intro hmem
  have hstate := (hwaiting a).2 hmem
  cases hslot : m.slots.get i with
  | free => rw [hslot] at hseat; cases hseat
  | entitled b n =>
    have hstate' := (hentitled a).2 ⟨i, by rw [hslot] at hseat ⊢; simpa [HoldSlot.agent?, HoldSlot.entitles] using hseat⟩
    rw [hstate] at hstate'
    cases hstate'
  | holding b c r n =>
    have hstate' := (hholding a).2 ⟨i, c, by rw [hslot] at hseat ⊢; simpa [HoldSlot.agent?, HoldSlot.holds] using hseat⟩
    rw [hstate] at hstate'
    cases hstate'

/-- A slot that runs out is released, a holder having lost its cell (R75, R79). -/
theorem Monitor.slotExpiry_spec {m : Monitor} {i : SlotIx} {a : Agent} {limit : Nat} {held : Option (Addr × Nat)} {x : MonitorStep}
    (hwaiting : a ∉ m.waitList)
    (hexpiry : held = none ∧ x = m.releaseSlot i a none .expired limit
      ∨ ∃ cell region, held = some (cell, region)
        ∧ x = (m.lose a cell .expired).releaseSlot i a (some (cell, .region region)) .expired limit) :
    ∃ n : Monitor,
      x = { monitor := n
            records := .ofRelease a (held.map fun y => (y.1, .region y.2)) .expired :: (m.waitList.take 1).map .ofEntitle }
      ∧ n.table = m.table ∧ n.slots = m.slots.set i (m.heir limit) ∧ n.waitList = m.waitList.tail
      ∧ ∀ b, n.ctx b =
          if b = a then
            { m.ctx b with
              state := .normal
              loss := held.elim (m.ctx b).loss fun y => insertLoss (m.ctx b).loss y.1 .expired }
          else if m.waitList.head? = some b then { m.ctx b with state := .entitled }
          else m.ctx b := by
  have hhead : m.waitList.head? ≠ some a := fun h => hwaiting (List.mem_of_head? h)
  rcases hexpiry with ⟨rfl, rfl⟩ | ⟨cell, region, rfl, rfl⟩
  · obtain ⟨n, hrelease, htable, hslots, hwait, hctx⟩ := m.releaseSlot_spec i a none .expired limit
    refine ⟨n, hrelease, htable, hslots, hwait, fun b => ?_⟩
    rw [hctx]
    by_cases hb : b = a
    · subst hb
      simp [hhead]
    · by_cases hw : m.waitList.head? = some b <;> simp [hb, hw]
  · obtain ⟨n, hrelease, htable, hslots, hwait, hctx⟩ :=
      (m.lose a cell .expired).releaseSlot_spec i a (some (cell, .region region)) .expired limit
    refine ⟨n, hrelease, htable, hslots, hwait, fun b => ?_⟩
    rw [hctx, Monitor.ctx_lose, Monitor.lose_waitList]
    by_cases hb : b = a
    · subst hb
      simp [hhead]
    · by_cases hw : m.waitList.head? = some b <;> simp [hb, hw]

/-- Settles O41: an expiry is a release with its promotion, a holder having lost its cell. -/
theorem slotExpiries : Obligations.SlotExpiries := by
  unfold Obligations.SlotExpiries
  intro s i a c held hlawful hcase
  obtain ⟨x, hseat, hexec, hexpiry⟩ : ∃ x, (s.monitor.slots.get i).agent? = some a ∧ exec c s = .next (s.takeMonitor x)
      ∧ (held = none ∧ x = s.monitor.releaseSlot i a none .expired s.loader.entitlementLimit
        ∨ ∃ cell region, held = some (cell, region)
          ∧ x = (s.monitor.lose a cell .expired).releaseSlot i a (some (cell, .region region)) .expired s.loader.entitlementLimit) := by
    rcases hcase with ⟨rfl, hslot, rfl⟩ | ⟨rfl, cell, region, hslot, rfl⟩
    · refine ⟨s.monitor.entitlementExpiry i s.loader.entitlementLimit, by rw [hslot]; rfl, rfl, .inl ⟨rfl, ?_⟩⟩
      rw [Monitor.entitlementExpiry, hslot]
    · refine ⟨s.monitor.holdExpiry i s.loader.entitlementLimit, by rw [hslot]; rfl, rfl, .inr ⟨cell, region, rfl, ?_⟩⟩
      rw [Monitor.holdExpiry, hslot]
  obtain ⟨n, rfl, htable, hslots, hwait, hctx⟩ := Monitor.slotExpiry_spec (Monitor.notMem_waitList_of_seated hlawful hseat) hexpiry
  refine ⟨n, by rw [hexec, State.takeMonitor_of_not_evicted _ rfl], htable, hslots, hwait, fun b => (hctx b).trans ?_⟩
  cases held <;> rfl

/-! ### The drop (R41, R63, R83) -/

/-- The cells lost as DROPPED, one after another (R36). -/
def dropCells (cells : List Addr) (l : List LossEntry) : List LossEntry := cells.foldl (fun l c => insertLoss l c .dropped) l

/-- The cell the drop takes from the agent with the slot (R83, step 1). -/
def HoldSlot.heldBy (a : Agent) : HoldSlot → Option Addr
  | .free => none
  | .entitled _ _ => none
  | .holding b c _ _ => if b = a then some c else none

/-- The entries of the table are lost to their agents, oldest first (R41). -/
theorem Monitor.ctx_foldl_drop (es : List TableEntry) (m : Monitor) (a : Agent) :
    (es.foldl (fun x e => x.lose e.agent e.cell .dropped) m).ctx a =
      { m.ctx a with loss := dropCells ((es.filter fun e => e.agent == a).map fun e => e.cell) (m.ctx a).loss } := by
  induction es generalizing m with
  | nil => rfl
  | cons e es ih =>
    rw [List.foldl_cons, ih, Monitor.ctx_lose]
    by_cases ha : e.agent = a
    · simp [dropCells, ha]
    · simp [ha, Ne.symm ha]

theorem Monitor.foldl_drop_slots (es : List TableEntry) (m : Monitor) :
    (es.foldl (fun x e => x.lose e.agent e.cell .dropped) m).slots = m.slots := by
  induction es generalizing m with
  | nil => rfl
  | cons e es ih => exact ih (m.lose e.agent e.cell .dropped)

/-- A slot is lost to its holder. -/
theorem Monitor.ctx_dropSlot (m : Monitor) (i : SlotIx) (a : Agent) :
    (m.dropSlot i).ctx a = { m.ctx a with loss := dropCells ((m.slots.get i).heldBy a).toList (m.ctx a).loss } := by
  unfold Monitor.dropSlot
  cases m.slots.get i with
  | free => rfl
  | entitled b n => rfl
  | holding b c r n =>
    have hctx := Monitor.ctx_lose (m.setSlot i .free) b a c .dropped
    dsimp only
    rw [hctx]
    by_cases ha : a = b
    · subst ha
      simp [HoldSlot.heldBy, dropCells]
    · simp [HoldSlot.heldBy, ha, Ne.symm ha, dropCells]

theorem dropCells_append (xs ys : List Addr) (l : List LossEntry) : dropCells (xs ++ ys) l = dropCells ys (dropCells xs l) :=
  List.foldl_append

/-- The slots are lost to their holders, in slot order. -/
theorem Monitor.ctx_foldl_dropSlot (m : Monitor) (a : Agent) :
    (([0, 1, 2, 3] : List SlotIx).foldl Monitor.dropSlot m).ctx a =
      { m.ctx a with loss := dropCells (m.slots.toList.filterMap (HoldSlot.heldBy a)) (m.ctx a).loss } := by
  have hcons (h : HoldSlot) (hs : List HoldSlot) :
      (h :: hs).filterMap (HoldSlot.heldBy a) = (h.heldBy a).toList ++ hs.filterMap (HoldSlot.heldBy a) := by
    rw [List.filterMap_cons]
    cases h.heldBy a <;> rfl
  have hcells : m.slots.toList.filterMap (HoldSlot.heldBy a) =
      ((m.slots.get 0).heldBy a).toList ++ (((m.slots.get 1).heldBy a).toList ++ (((m.slots.get 2).heldBy a).toList
        ++ (((m.slots.get 3).heldBy a).toList ++ []))) := by
    change [m.slots.get 0, m.slots.get 1, m.slots.get 2, m.slots.get 3].filterMap (HoldSlot.heldBy a) = _
    rw [hcons, hcons, hcons, hcons, List.filterMap_nil]
  rw [List.append_nil] at hcells
  simp only [List.foldl_cons, List.foldl_nil, Monitor.ctx_dropSlot, Monitor.dropSlot_slots, hcells, dropCells_append]
  simp [Four.get_set]

/-- What the drop makes of a context (R41, R63, R83). -/
theorem Monitor.ctx_drop (m : Monitor) (a : Agent) :
    m.drop.ctx a =
      { m.ctx a with
        state := .normal
        streak := 0
        loss := dropCells ((m.table.filter fun e => e.agent == a).map (fun e => e.cell) ++ m.slots.toList.filterMap (HoldSlot.heldBy a))
          (m.ctx a).loss } := by
  have hlost := Monitor.ctx_foldl_dropSlot (m.table.foldl (fun x e => x.lose e.agent e.cell .dropped) { m with table := [] }) a
  rw [Monitor.foldl_drop_slots, Monitor.ctx_foldl_drop] at hlost
  rw [dropCells_append]
  exact (Monitor.ctx_mapCtxs _ _ a).trans (congrArg (fun x : AgentCtx => { x with state := .normal, streak := 0 }) hlost)

/-- An offer that follows a change of the monitor, and an earlier frame's end, answered. -/
theorem State.ack_offer_endFrame (s : State) (m : Monitor) (r : Record) :
    (({ s.endFrame with monitor := m } : State).offer r).ack = { (s.offer r).answered .ack [] .nothing with monitor := m } := by
  unfold State.offer
  by_cases h : s.capture.freezesOn r = true <;> simp only [State.endFrame, h] <;> rfl

/-- Settles O45: the drop is one run of losses for each agent. -/
theorem monitorResetDrops : Obligations.MonitorResetDrops := by
  unfold Obligations.MonitorResetDrops
  intro s hframe
  refine ⟨s.monitor.drop, ?_, s.monitor.drop_table, s.monitor.drop_slots, s.monitor.drop_waitList, s.monitor.ctx_drop⟩
  refine (congrArg Host.Outcome.next (State.atPointOfEffect_of_ne hframe _)).trans ?_
  exact congrArg Host.Outcome.next (s.ack_offer_endFrame _ _)

end Sys2Proof.Machine
end

section
-- One theorem at a time: side by side the proofs ask for more threads than the sandbox grants.
set_option Elab.async false

/-! PROOFS. The capture unit (chapter 8): the filter, the match, the append and the fields of each record (R147, R149, R150, R153): O49; and
the positions (R151 to R156): O48. -/
namespace Sys2Proof.Machine

/-! ### The filter and the trigger's match (R150, R153) -/

theorem Setup.passes_iff (f : Setup) (r : Record) :
    f.passes r = true ↔
      f.kindMask.getLsbD (r.kind.code - 1) = true
        ∧ (∀ c i, r.place = some (c, .region i) → f.regionMask.getLsbD i = true)
        ∧ (∀ c, r.place = some (c, .default) → f.regionMask.getLsbD 16 = true)
        ∧ ∀ a, r.agent = some a → f.agentMask.getLsbD a.val = true := by
  rw [Setup.passes, Bool.and_eq_true, Bool.and_eq_true, and_assoc]
  refine and_congr_right fun _ => ?_
  rw [← and_assoc]
  refine and_congr ?_ ?_
  · cases r.place with
    | none => simp
    | some x =>
      obtain ⟨c, ix⟩ := x
      cases ix <;> simp [regionBit]
  · cases r.agent <;> simp

theorem Setup.matchesTrigger_iff (f : Setup) (r : Record) :
    f.matchesTrigger r = true ↔
      f.triggerKind = some r.kind
        ∧ (f.agentMatchOn = true → ∃ a, r.agent = some a ∧ a.val = f.agentMatch.toNat % 16)
        ∧ (f.cellMatchOn = true → ∃ ix, r.place = some (f.cellMatch, ix)) := by
  rw [Setup.matchesTrigger, Bool.and_eq_true, Bool.and_eq_true, and_assoc, beq_iff_eq]
  refine and_congr_right fun _ => and_congr ?_ ?_
  · cases f.agentMatchOn <;> cases r.agent <;> simp
  · cases f.cellMatchOn with
    | false => simp
    | true =>
      cases r.place with
      | none => simp
      | some x =>
        obtain ⟨c, ix⟩ := x
        simp

/-! ### Taking a record (R149, R152) -/

/-- A record that the filter stops changes nothing. -/
theorem Capture.take_of_not_passes {c : Capture} {r : Record} (h : c.setup.passes r = false) : c.take r = c := by
  unfold Capture.take
  split <;> simp [h]

theorem Capture.take_running {c : Capture} {r : Record} (hstate : c.state = .running) (hpass : c.setup.passes r = true) :
    c.take r = c.takeRunning r := by
  simp [Capture.take, hstate, hpass]

theorem Capture.take_triggered {c : Capture} {r : Record} (hstate : c.state = .triggered) (hpass : c.setup.passes r = true) :
    c.take r = c.takeTriggered r := by
  simp [Capture.take, hstate, hpass]

/-- The trigger record of a RUNNING capture. -/
theorem Capture.take_trigger {c : Capture} {r : Record} (hstate : c.state = .running) (hpass : c.setup.passes r = true)
    (hmatch : c.setup.matchesTrigger r = true) (hcount : c.matchCount + 1 = c.setup.count) :
    c.take r = ({ c with matchCount := c.matchCount + 1 } : Capture).takeTrigger r := by
  rw [Capture.take_running hstate hpass, Capture.takeRunning, if_pos hmatch, if_pos hcount]

/-- Settles O49: filter and match field by field, the append by its branch. -/
theorem filterMatchAndAppend : Obligations.FilterMatchAndAppend := by
  unfold Obligations.FilterMatchAndAppend
  refine ⟨fun f r => ⟨f.passes_iff r, f.matchesTrigger_iff r⟩, fun c r => ⟨fun hstays => ?_, fun hrunning hpass hnot => ?_⟩,
    fun a b c ix place k whose code f hf => ?_⟩
  · rcases hstays with hoff | hfrozen | hstopped
    · exact Capture.take_idle (c.idle_eq_true_iff.2 (.inl hoff)) r
    · exact Capture.take_idle (c.idle_eq_true_iff.2 (.inr hfrozen)) r
    · exact Capture.take_of_not_passes hstopped
  · have hring : (if c.ring.length < 256 then c.ring else c.ring.tail) = if Config.ringSize ≤ c.ring.length then c.ring.drop 1 else c.ring := by
      have hsize : Config.ringSize = 256 := rfl
      rw [List.drop_one, hsize]
      by_cases hroom : c.ring.length < 256
      · rw [if_pos hroom, if_neg (Nat.not_le.2 hroom)]
      · rw [if_neg hroom, if_pos (Nat.not_lt.1 hroom)]
    rw [Capture.take_running hrunning hpass, Capture.takeRunning, hring]
    by_cases hmatch : c.setup.matchesTrigger r = true
    · rw [if_pos hmatch, if_neg (hnot hmatch), if_pos hmatch]
      rfl
    · rw [if_neg hmatch, if_neg hmatch]
      rfl
  · simp only [hf]
    exact ⟨rfl, rfl, rfl, rfl, rfl, rfl, rfl, rfl, rfl, rfl, rfl, rfl⟩

/-! ### The positions (R151 to R156) -/

/-- What the ring holds, without the numbers and the times. -/
def Capture.held (c : Capture) : List Record := c.ring.map fun x => x.record

@[simp] theorem Capture.length_held (c : Capture) : c.held.length = c.ring.length := List.length_map _

/-- An append keeps the newest 256 (R149). -/
theorem Capture.held_append {c : Capture} (h : c.ring.length ≤ 256) (r : Record) :
    (c.append r).held = (c.held ++ [r]).drop (c.ring.length + 1 - 256) := by
  unfold Capture.held Capture.append
  dsimp only
  by_cases hfull : Config.ringSize ≤ c.ring.length
  · have hlength : c.ring.length = 256 := Nat.le_antisymm h hfull
    rw [if_pos hfull, hlength, List.map_append, List.drop_append_of_le_length (by simp [hlength]), List.map_drop]
    rfl
  · have hroom : c.ring.length < 256 := Nat.not_le.1 hfull
    rw [if_neg hfull, List.map_append, Nat.sub_eq_zero_of_le (by omega)]
    rfl

theorem Capture.length_append {c : Capture} (h : c.ring.length ≤ 256) (r : Record) :
    (c.append r).ring.length = min 256 (c.ring.length + 1) := by
  rw [← Capture.length_held, Capture.held_append h]
  simp
  omega

/-- A TRIGGERED capture appends what passes the filter, and freezes with the record that spends its count (R155, R156). -/
theorem Capture.foldl_take_triggered {after : List Record} {c : Capture} (hstate : c.state = .triggered) (hring : c.ring.length ≤ 256)
    (hpass : ∀ x ∈ after, c.setup.passes x = true) (hcount : 0 < c.remaining) (hfits : after.length ≤ c.remaining) :
    (after.foldl Capture.take c).state = (if after.length = c.remaining then .frozen else .triggered)
      ∧ (after.foldl Capture.take c).held = (c.held ++ after).drop (c.ring.length + after.length - 256) := by
  induction after generalizing c with
  | nil =>
    refine ⟨?_, ?_⟩
    · rw [if_neg (by simp only [List.length_nil]; omega)]
      exact hstate
    · rw [List.append_nil, List.length_nil, Nat.add_zero, Nat.sub_eq_zero_of_le hring]
      rfl
  | cons r after ih =>
    have htake := Capture.take_triggered hstate (hpass r List.mem_cons_self)
    have hheld : (c.take r).held = (c.held ++ [r]).drop (c.ring.length + 1 - 256) := by rw [htake]; exact Capture.held_append hring r
    have hlength : (c.take r).ring.length = min 256 (c.ring.length + 1) := by rw [htake]; exact Capture.length_append hring r
    have hremaining : (c.take r).remaining = c.remaining - 1 := by rw [htake]; rfl
    have hstate' : (c.take r).state = if c.remaining - 1 = 0 then .frozen else .triggered := by rw [htake]; rfl
    rw [List.length_cons] at hfits
    rw [List.foldl_cons]
    by_cases hlast : c.remaining - 1 = 0
    · have hnil : after = [] := List.eq_nil_of_length_eq_zero (by omega)
      subst hnil
      rw [if_pos hlast] at hstate'
      exact ⟨by rw [if_pos (by simp only [List.length_cons, List.length_nil]; omega)]; exact hstate', hheld⟩
    · rw [if_neg hlast] at hstate'
      obtain ⟨hend, hkept⟩ := ih hstate' (by omega) (fun x hx => by rw [Capture.take_setup]; exact hpass x (List.mem_cons_of_mem _ hx))
        (by omega) (by omega)
      refine ⟨?_, ?_⟩
      · rw [hend, hremaining, List.length_cons]
        by_cases hall : after.length + 1 = c.remaining
        · rw [if_pos hall, if_pos (by omega)]
        · rw [if_neg hall, if_neg (by omega)]
      · have hkeeps : c.ring.length + 1 - 256 + (min 256 (c.ring.length + 1) + after.length - 256) =
            c.ring.length + (after.length + 1) - 256 := by omega
        rw [hkept, hheld, hlength, ← List.drop_append_of_le_length (by simp; omega), List.drop_drop, List.append_assoc, List.length_cons,
          hkeeps]
        rfl

theorem Capture.foldl_take_idle (after : List Record) {c : Capture} (h : c.idle = true) : after.foldl Capture.take c = c := by
  induction after with
  | nil => rfl
  | cons r after ih => rw [List.foldl_cons, Capture.take_idle h, ih]

/-- The trigger record of a LEAD capture freezes it (R154). -/
theorem Capture.takeTrigger_lead {c : Capture} (hring : c.ring.length ≤ 256) (hlead : c.setup.position = .lead) (r : Record) :
    (c.takeTrigger r).state = .frozen ∧ (c.takeTrigger r).held = c.held.drop (c.ring.length - 255) ++ [r] := by
  have hkeeps : c.ring.length - 255 = c.ring.length + 1 - 256 := by omega
  rw [Capture.takeTrigger, hlead, ← List.drop_append_of_le_length (by simp), hkeeps]
  exact ⟨rfl, Capture.held_append hring r⟩

/-- The trigger record of a CENTRE capture, and what follows it (R155). -/
theorem Capture.takeTrigger_centre {c : Capture} (hring : c.ring.length ≤ 256) (hcentre : c.setup.position = .centre) {r : Record}
    {after : List Record} (hpass : ∀ x ∈ after, c.setup.passes x = true) (hfits : after.length ≤ 128) :
    (after.foldl Capture.take (c.takeTrigger r)).state = (if after.length = 128 then .frozen else .triggered)
      ∧ (after.length = 128 →
        (after.foldl Capture.take (c.takeTrigger r)).held = c.held.drop (c.ring.length - 127) ++ r :: after) := by
  have htrigger : c.takeTrigger r = { c.append r with state := .triggered, remaining := 128 } := by
    rw [Capture.takeTrigger, hcentre]
    rfl
  have hheld : (c.takeTrigger r).held = (c.held ++ [r]).drop (c.ring.length + 1 - 256) := by
    rw [htrigger]
    exact Capture.held_append hring r
  have hlength : (c.takeTrigger r).ring.length = min 256 (c.ring.length + 1) := by
    rw [htrigger]
    exact Capture.length_append hring r
  have hremaining : (c.takeTrigger r).remaining = 128 := by rw [htrigger]
  obtain ⟨hstate, hkept⟩ := Capture.foldl_take_triggered (c := c.takeTrigger r) (after := after) (by rw [htrigger])
    (by omega) (by rw [htrigger]; exact hpass) (by omega) (by omega)
  refine ⟨by rw [hstate, hremaining], fun hall => ?_⟩
  have hkeeps : c.ring.length + 1 - 256 + (min 256 (c.ring.length + 1) + 128 - 256) = c.ring.length - 127 := by omega
  rw [hkept, hheld, hlength, ← List.drop_append_of_le_length (by simp; omega), List.drop_drop, hall, hkeeps, List.append_assoc,
    List.drop_append_of_le_length (by simp)]
  rfl

/-- The trigger record of a TRAIL capture, and what follows it (R156). -/
theorem Capture.takeTrigger_trail {c : Capture} (htrail : c.setup.position = .trail) {r : Record} {after : List Record}
    (hpass : ∀ x ∈ after, c.setup.passes x = true) (hfits : after.length ≤ 255) :
    (after.foldl Capture.take (c.takeTrigger r)).state = (if after.length = 255 then .frozen else .triggered)
      ∧ (after.length = 255 → (after.foldl Capture.take (c.takeTrigger r)).held = r :: after) := by
  have htrigger : c.takeTrigger r = { ({ c with ring := [] } : Capture).append r with state := .triggered, remaining := 255 } := by
    rw [Capture.takeTrigger, htrail]
    rfl
  have hheld : (c.takeTrigger r).held = [r] := by rw [htrigger]; rfl
  have hlength : (c.takeTrigger r).ring.length = 1 := by rw [htrigger]; rfl
  have hremaining : (c.takeTrigger r).remaining = 255 := by rw [htrigger]
  obtain ⟨hstate, hkept⟩ := Capture.foldl_take_triggered (c := c.takeTrigger r) (after := after) (by rw [htrigger])
    (by omega) (by rw [htrigger]; exact hpass) (by omega) (by omega)
  refine ⟨by rw [hstate, hremaining], fun hall => ?_⟩
  rw [hkept, hheld, hlength, hall]
  rfl

/-- Which record freezes a capture (R151). -/
theorem Capture.freezesOn_iff (c : Capture) (r : Record) :
    c.freezesOn r = true ↔
      c.setup.passes r = true
        ∧ (c.state = .running ∧ c.setup.matchesTrigger r = true ∧ c.matchCount + 1 = c.setup.count ∧ c.setup.position = .lead
          ∨ c.state = .triggered ∧ c.remaining ≤ 1) := by
  rw [Capture.freezesOn, Bool.and_eq_true, decide_eq_true_eq, decide_eq_true_eq]
  by_cases hpass : c.setup.passes r = true
  · cases hstate : c.state with
    | off => simp [Capture.take, hstate]
    | frozen => simp
    | running =>
      rw [Capture.take_running hstate hpass, Capture.takeRunning]
      by_cases hmatch : c.setup.matchesTrigger r = true
      · by_cases hcount : c.matchCount + 1 = c.setup.count
        · cases hposition : c.setup.position <;> simp [hpass, hmatch, hcount, Capture.takeTrigger, hposition]
        · simp [hpass, hmatch, hcount, Capture.append, hstate]
      · simp [hmatch, Capture.append, hstate]
    | triggered =>
      rw [Capture.take_triggered hstate hpass, Capture.takeTriggered]
      by_cases hlast : c.remaining - 1 = 0
      · simp [hpass, hlast, Nat.sub_eq_zero_iff_le.1 hlast]
      · have hmore : ¬c.remaining ≤ 1 := fun h => hlast (Nat.sub_eq_zero_of_le h)
        simp [hlast, hmore]
  · rw [Bool.not_eq_true] at hpass
    rw [Capture.take_of_not_passes hpass]
    simp [hpass]

/-- Settles O48: the fold of the records that follow the trigger record, by the count they spend. -/
theorem positionsFreeze : Obligations.PositionsFreeze := by
  unfold Obligations.PositionsFreeze
  refine ⟨fun c r after d held hstate hring hpass hmatch hcount hafter hd hheld => ?_, fun s r freezes hfreezes => ?_⟩
  · subst hd hheld
    let c1 : Capture := { c with matchCount := c.matchCount + 1 }
    have hring1 : c1.ring.length ≤ 256 := hring
    rw [Capture.take_trigger hstate hpass hmatch hcount]
    refine ⟨fun hlead => ?_, fun hcentre => ⟨fun hfew => ?_, fun hall => ?_⟩, fun htrail => ⟨fun hfew => ?_, fun hall => ?_⟩⟩
    · obtain ⟨hfrozen, hkept⟩ := Capture.takeTrigger_lead hring1 hlead r
      rw [Capture.foldl_take_idle after ((Capture.idle_eq_true_iff _).2 (.inr hfrozen))]
      exact ⟨hfrozen, hkept⟩
    · obtain ⟨hend, -⟩ := Capture.takeTrigger_centre hring1 hcentre (r := r) hafter (Nat.le_of_lt hfew)
      rw [hend, if_neg (Nat.ne_of_lt hfew)]
    · obtain ⟨hend, hkept⟩ := Capture.takeTrigger_centre hring1 hcentre (r := r) hafter (Nat.le_of_eq hall)
      exact ⟨by rw [hend, if_pos hall], hkept hall⟩
    · obtain ⟨hend, -⟩ := Capture.takeTrigger_trail (c := c1) htrail (r := r) hafter (Nat.le_of_lt hfew)
      rw [hend, if_neg (Nat.ne_of_lt hfew)]
    · obtain ⟨hend, hkept⟩ := Capture.takeTrigger_trail (c := c1) htrail (r := r) hafter (Nat.le_of_eq hall)
      exact ⟨by rw [hend, if_pos hall], hkept hall⟩
  · rw [← Capture.freezesOn_iff] at hfreezes
    refine ⟨fun h => ⟨?_, ?_⟩, fun h => ⟨?_, ?_⟩⟩
    · have hon := hfreezes.1 h
      rw [Capture.freezesOn, Bool.and_eq_true, decide_eq_true_eq, decide_eq_true_eq] at hon
      exact hon.2
    · rw [State.offer, if_pos (hfreezes.1 h)]
      rfl
    · have hnot : ¬s.capture.freezesOn r = true := fun hon => h (hfreezes.2 hon)
      rw [Capture.freezesOn, Bool.and_eq_true, decide_eq_true_eq, decide_eq_true_eq] at hnot
      refine ⟨fun htaken => Classical.byContradiction fun hne => hnot ⟨hne, htaken⟩, fun hfrozen => ?_⟩
      rw [Capture.take_idle (s.capture.idle_eq_true_iff.2 (.inr hfrozen))]
      exact hfrozen
    · rw [State.offer, if_neg fun hon => h (hfreezes.2 hon)]

end Sys2Proof.Machine
end

section
-- One theorem at a time: side by side the proofs ask for more threads than the sandbox grants.
set_option Elab.async false

/-! PROOFS. Fields of byte runs (R178), and with them CAPTURE_SETUP, CAPTURE_READ and the bytes of a record (R159, R160, 11.4): O47. -/
namespace Sys2Proof.Machine

/-! ### Reading a field from a run of bytes (R178) -/

theorem leField_append_left {xs ys : List Byte} {off n : Nat} (h : off + n ≤ xs.length) : leField (xs ++ ys) off n = leField xs off n := by
  rw [leField, leField, List.drop_append_of_le_length (by omega), List.take_append_of_le_length (by simp; omega)]

theorem leField_append_right {xs ys : List Byte} {off n : Nat} (h : xs.length ≤ off) :
    leField (xs ++ ys) off n = leField ys (off - xs.length) n := by
  rw [leField, leField, List.drop_append, List.drop_eq_nil_of_le h, List.nil_append]

theorem leField_cons_succ (b : Byte) (bs : List Byte) (off n : Nat) : leField (b :: bs) (off + 1) n = leField bs off n := rfl

theorem leField_cons_zero_one (b : Byte) (bs : List Byte) : leField (b :: bs) 0 1 = b.toNat := by
  simp [leField, leNat]

/-- The bytes of a number give it back modulo what fits in them. -/
theorem leNat_leBytes_mod (n v : Nat) : leNat (leBytes n v) = v % 256 ^ n := by
  induction n generalizing v with
  | zero => simp [leBytes, leNat, Nat.mod_one]
  | succ n ih =>
    rw [leBytes, leNat, ih, Nat.pow_succ', Nat.mod_mul, BitVec.toNat_ofNat]

theorem leField_leBytes (n v : Nat) : leField (leBytes n v) 0 n = v % 256 ^ n := by
  rw [leField, List.drop_zero, List.take_of_length_le (by simp), leNat_leBytes_mod]

/-- The bytes of a 32-bit word give it back. -/
theorem leField_leBytes_word (v : BitVec 32) : leField (leBytes 4 v.toNat) 0 4 = v.toNat := by
  rw [leField_leBytes]
  exact Nat.mod_eq_of_lt v.isLt

/-- The bytes of an item of a table of equal rows. -/
theorem leField_flatMap {α : Type} {g : α → List Byte} {w : Nat} (hwidth : ∀ x, (g x).length = w) {l : List α} {k : Nat} {x : α}
    (hx : l[k]? = some x) {off n : Nat} (h : off + n ≤ w) : leField (l.flatMap g) (w * k + off) n = leField (g x) off n := by
  induction l generalizing k with
  | nil => simp at hx
  | cons y l ih =>
    rw [List.flatMap_cons]
    cases k with
    | zero =>
      rw [List.getElem?_cons_zero, Option.some.injEq] at hx
      rw [hx, Nat.mul_zero, Nat.zero_add, leField_append_left (by rw [hwidth]; exact h)]
    | succ k =>
      rw [List.getElem?_cons_succ] at hx
      rw [leField_append_right (by rw [hwidth, Nat.mul_succ]; omega), hwidth, Nat.mul_succ, ← ih hx]
      congr 1
      omega

@[simp] theorem toNat_byteOf (n : Nat) : (byteOf n).toNat = n % 256 := BitVec.toNat_ofNat n 8

/-! ### The bytes of a record (11.4) -/

/-- A record of the ring in 18 bytes, the place written out where there is one. -/
theorem RingRecord.bytes_eq (x : RingRecord) :
    x.bytes =
      leBytes 4 x.seq.toNat ++ (leBytes 4 x.time.toNat
        ++ (byteOf x.record.kind.code :: x.record.presence :: agentByte x.record.agent :: agentByte x.record.other
          :: x.record.place.elim 0 (fun p => p.2.code) :: x.record.codeByte
          :: leBytes 4 (x.record.place.elim 0 fun p => p.1.toNat))) := by
  rw [RingRecord.bytes, List.append_assoc, List.append_assoc]
  cases x.record.place with
  | none => rfl
  | some p => rfl

/-- The weight of a field that is present. -/
theorem ite_isSome_eq {α : Type} (o : Option α) [Decidable (o = none)] (n : Nat) :
    (if o.isSome then n else 0) = if o = none then 0 else n := by
  cases o <;> simp

/-- The presence flags, bit by bit. -/
theorem Record.toNat_presence (r : Record) :
    r.presence.toNat =
      (if r.agent = none then 0 else 1) + (if r.place = none then 0 else 2) + (if r.cause = none then 0 else 4)
        + (if r.control = none then 0 else 8) + (if r.other = none then 0 else 16) := by
  have hle (b : Bool) (n : Nat) : (if b then n else 0) ≤ n := by split <;> omega
  have hagent := hle r.agent.isSome 1
  have hplace := hle r.place.isSome 2
  have hcause := hle r.cause.isSome 4
  have hcontrol := hle r.control.isSome 8
  have hother := hle r.other.isSome 16
  rw [Record.presence, toNat_byteOf, Nat.mod_eq_of_lt (by omega)]
  simp only [ite_isSome_eq]

theorem toNat_agentByte (a : Option Agent) : (agentByte a).toNat = match a with | some a => a.val | none => 0 := by
  cases a with
  | none => rfl
  | some a =>
    refine (toNat_byteOf _).trans (Nat.mod_eq_of_lt ?_)
    have := a.isLt
    omega

/-- The codes of 11.5 are places in the list of causes. -/
def causesByCode : List Cause :=
  [.none, .noReservation, .broken, .expired, .evicted, .displaced, .held, .fenced, .dropped, .misaligned, .straddle,
    .burstInGuard, .narrowTally, .memError, .memTimeout, .saturated]

theorem causesByCode_code (k : Cause) : causesByCode[k.code.toNat]? = some k := by
  cases k <;> rfl

theorem RecordKind.code_spec (k : RecordKind) :
    ([.commit, .refuse, .brk, .expire, .evict, .displace, .entitle, .hold, .release, .tally, .fault, .control]
      : List RecordKind)[(byteOf k.code).toNat - 1]? = some k ∧ 1 ≤ (byteOf k.code).toNat := by
  cases k <;> exact ⟨rfl, by decide⟩

theorem ControlCode.code_spec (k : ControlCode) :
    1 ≤ k.code.toNat
      ∧ ([.loadOk, .loadInvalid, .reloadOk, .reloadRejected, .monitorReset, .portReset] : List ControlCode)[k.code.toNat - 1]?
        = some k := by
  cases k <;> exact ⟨by decide, rfl⟩

/-- Every field of a record at its place (11.4). -/
theorem RingRecord.leField_bytes (x : RingRecord) :
    leField x.bytes 0 4 = x.seq.toNat ∧ leField x.bytes 4 4 = x.time.toNat
      ∧ leField x.bytes 8 1 = (byteOf x.record.kind.code).toNat ∧ leField x.bytes 9 1 = x.record.presence.toNat
      ∧ leField x.bytes 10 1 = (agentByte x.record.agent).toNat ∧ leField x.bytes 11 1 = (agentByte x.record.other).toNat
      ∧ leField x.bytes 12 1 = (x.record.place.elim 0 fun p => p.2.code).toNat ∧ leField x.bytes 13 1 = x.record.codeByte.toNat
      ∧ leField x.bytes 14 4 = x.record.place.elim 0 fun p => p.1.toNat := by
  have hcell : (x.record.place.elim 0 fun p => p.1.toNat) < 256 ^ 4 := by
    cases x.record.place with
    | none => exact Nat.pow_pos (by omega)
    | some p => exact p.1.isLt
  rw [x.bytes_eq]
  refine ⟨?_, ?_, ?_, ?_, ?_, ?_, ?_, ?_, ?_⟩
  · rw [leField_append_left (by simp), leField_leBytes_word]
  · rw [leField_append_right (by simp), leBytes_length, leField_append_left (by simp), leField_leBytes_word]
  all_goals
    rw [leField_append_right (by simp), leBytes_length, leField_append_right (by simp), leBytes_length]
  all_goals simp only [Nat.reduceSub, leField_cons_succ, leField_cons_zero_one]
  rw [leField_leBytes, Nat.mod_eq_of_lt hcell]

/-! ### CAPTURE_SETUP (R159, R179) -/

/-- The record kind a code names: 1 to 12, in the order of 11.5. -/
theorem recordKindOf_eq (b : Byte) :
    recordKindOf b =
      ([none, some .commit, some .refuse, some .brk, some .expire, some .evict, some .displace, some .entitle, some .hold, some .release,
        some .tally, some .fault, some .control] : List (Option RecordKind)).getD b.toNat none := by
  unfold recordKindOf
  match b.toNat with
  | 0 | 1 | 2 | 3 | 4 | 5 | 6 | 7 | 8 | 9 | 10 | 11 | 12 => rfl
  | n + 13 => rfl

/-- A code that is 0 or none of the twelve names no record kind. -/
theorem recordKindOf_eq_none_iff (b : Byte) : recordKindOf b = none ↔ b.toNat = 0 ∨ 12 < b.toNat := by
  rw [recordKindOf_eq]
  match b.toNat with
  | 0 | 1 | 2 | 3 | 4 | 5 | 6 | 7 | 8 | 9 | 10 | 11 | 12 => simp
  | n + 13 => simp

theorem positionOf_of_le {b : Byte} (h : b.toNat ≤ 2) :
    positionOf b = some (if b = 0 then .lead else if b = 1 then .centre else .trail) := by
  have htwo : b ≠ 0 → b ≠ 1 → b = 2 := fun h0 h1 => by bv_omega
  unfold positionOf
  by_cases h0 : b = 0
  · rw [if_pos h0, if_pos h0]
  · by_cases h1 : b = 1
    · rw [if_neg h0, if_pos h1, if_neg h0, if_pos h1]
    · rw [if_neg h0, if_neg h1, if_pos (htwo h0 h1), if_neg h0, if_neg h1]

theorem positionOf_of_lt {b : Byte} (h : 2 < b.toNat) : positionOf b = none := by
  unfold positionOf
  rw [if_neg fun h0 => by simp [h0] at h, if_neg fun h1 => by simp [h1] at h, if_neg fun h2 => by simp [h2] at h]

theorem cellOf_ne_iff (a : Addr) : cellOf a ≠ a ↔ a.toNat % 8 ≠ 0 := by
  rw [ne_eq, BitVec.toNat_eq, toNat_cellOf]
  omega

/-- The arguments of CAPTURE_SETUP that are out of range (R159, R179). -/
def OutOfRange (x : SetupArgs) : Prop :=
  x.count = 0 ∨ 12 < x.triggerKind.toNat ∨ 2 < x.position.toNat ∨ x.matchFlags.getLsbD 1 = true ∧ x.cellMatch.toNat % 8 ≠ 0

theorem Setup.ofArgs_of_outOfRange {x : SetupArgs} (h : OutOfRange x) : Setup.ofArgs x = none := by
  unfold Setup.ofArgs
  by_cases hcount : x.count = 0#8
  · rw [if_pos hcount]
  rw [if_neg hcount]
  by_cases hkind : x.triggerKind ≠ 0#8 ∧ recordKindOf x.triggerKind = none
  · rw [if_pos hkind]
  rw [if_neg hkind]
  by_cases hcell : x.matchFlags.getLsbD 1 ∧ cellOf x.cellMatch ≠ x.cellMatch
  · rw [if_pos hcell]
  rw [if_neg hcell]
  rcases h with h | h | h | ⟨hon, hodd⟩
  · exact absurd h hcount
  · refine absurd ⟨fun h0 => ?_, (recordKindOf_eq_none_iff _).2 (.inr h)⟩ hkind
    simp [h0] at h
  · rw [positionOf_of_lt h]
  · exact absurd ⟨hon, (cellOf_ne_iff _).2 hodd⟩ hcell

/-- The setup that arguments in range give. -/
theorem Setup.ofArgs_of_inRange {x : SetupArgs} (h : ¬OutOfRange x) :
    Setup.ofArgs x =
      some
        { kindMask := x.kindMask.setWidth 12
          regionMask := x.regionMask.setWidth 17
          agentMask := x.agentMask
          triggerKind := recordKindOf x.triggerKind
          agentMatchOn := x.matchFlags.getLsbD 0
          agentMatch := x.agentMatch
          cellMatchOn := x.matchFlags.getLsbD 1
          cellMatch := x.cellMatch
          count := x.count.toNat
          position := if x.position = 0 then .lead else if x.position = 1 then .centre else .trail } := by
  simp only [OutOfRange, not_or] at h
  obtain ⟨hcount, hkind, hposition, hcell⟩ := h
  have hcount' : ¬x.count = 0#8 := hcount
  have hkind' : ¬(x.triggerKind ≠ 0#8 ∧ recordKindOf x.triggerKind = none) := by
    rintro ⟨hne, hnone⟩
    rcases (recordKindOf_eq_none_iff _).1 hnone with h0 | h12
    · exact hne (BitVec.eq_of_toNat_eq h0)
    · exact hkind h12
  have hcell' : ¬(x.matchFlags.getLsbD 1 ∧ cellOf x.cellMatch ≠ x.cellMatch) := by
    rwa [cellOf_ne_iff]
  unfold Setup.ofArgs
  rw [if_neg hcount', if_neg hkind', if_neg hcell', positionOf_of_le (Nat.not_lt.1 hposition)]

/-! ### The two commands over the whole part (R159, R160) -/

/-- CAPTURE_SETUP at its point of effect. -/
theorem exec_captureSetup {s : State} (h : s.link.frame ≠ .awaitRise) (x : SetupArgs) :
    exec (.captureSetup x) s =
      .next (if s.capture.idle then
          match Setup.ofArgs x with
          | some f => { s.answered .ack [] .nothing with capture := { s.capture with setup := f } }
          | none => s.answered .badarg [] .nothing
        else s.answered .busy [] .nothing) :=
  congrArg Host.Outcome.next (State.atPointOfEffect_of_ne h _)

/-- CAPTURE_READ at its point of effect. -/
theorem exec_captureRead {s : State} (h : s.link.frame ≠ .awaitRise) (start : Byte) (count : BitVec 16) :
    exec (.captureRead start count) s =
      .next (if s.capture.idle then
          if count.toNat = 0 ∨ 256 < count.toNat then s.answered .badarg [] .nothing
          else s.answered .ack (s.capture.readBytes start.toNat count.toNat) .nothing
        else s.answered .busy [] .nothing) :=
  congrArg Host.Outcome.next (State.atPointOfEffect_of_ne h _)

/-- Settles O47: both commands by the capture state and their arguments, the bytes field by field. -/
theorem setupAndRead : Obligations.SetupAndRead := by
  unfold Obligations.SetupAndRead
  refine ⟨fun s x bad hframe hbad => ?_, fun s start count records hframe hrecords => ?_, fun x r f hr hf => ?_⟩
  · rw [exec_captureSetup hframe]
    refine ⟨fun hruns => ?_, fun hrests hout => ?_, fun hrests hin => ?_⟩
    · rw [s.capture.idle_eq_false_iff.2 hruns, if_neg Bool.false_ne_true]
    · rw [s.capture.idle_eq_true_iff.2 hrests, if_pos rfl, Setup.ofArgs_of_outOfRange (hbad.1 hout)]
    · rw [s.capture.idle_eq_true_iff.2 hrests, if_pos rfl, Setup.ofArgs_of_inRange fun hout => hin (hbad.2 hout)]
      exact ⟨_, rfl, BitVec.toNat_setWidth .., BitVec.toNat_setWidth .., rfl, recordKindOf_eq _, rfl, rfl, rfl, rfl, rfl, rfl⟩
  · subst hrecords
    rw [exec_captureRead hframe]
    refine ⟨fun hruns => ?_, fun hrests => ⟨fun hbad => ?_, fun hin => ⟨?_, ?_⟩⟩⟩
    · rw [s.capture.idle_eq_false_iff.2 hruns, if_neg Bool.false_ne_true]
    · rw [s.capture.idle_eq_true_iff.2 hrests, if_pos rfl, if_pos hbad]
    · rw [s.capture.idle_eq_true_iff.2 hrests, if_pos rfl, if_neg (by omega)]
      rfl
    · rw [List.length_take, List.length_drop]
  · subst hr
    obtain ⟨hseq, htime, hkind, hpresence, hagent, hother, hregion, hcode, hcell⟩ := x.leField_bytes
    obtain ⟨hkinds, hone⟩ := RecordKind.code_spec x.record.kind
    simp only [hf]
    refine ⟨x.bytes_length, hseq, htime, ?_, ?_, ?_, ?_, ?_, ?_, fun k hk => ?_, fun k hk hcontrol => ?_, fun hk hcontrol => ?_, ?_⟩
    · rw [hkind, hkinds]
    · rw [hkind]; exact hone
    · rw [hpresence, Record.toNat_presence]
    · exact hagent.trans ((toNat_agentByte _).trans (by cases x.record.agent <;> rfl))
    · exact hother.trans ((toNat_agentByte _).trans (by cases x.record.other <;> rfl))
    · rw [hregion]
      cases x.record.place with
      | none => rfl
      | some p =>
        obtain ⟨c, ix⟩ := p
        cases ix with
        | region i => exact toNat_byteOf i
        | default => rfl
    · rw [hcode, Record.codeByte, hk]
      exact causesByCode_code k
    · rw [hcode, Record.codeByte, hk, hcontrol]
      exact ControlCode.code_spec k
    · rw [hcode, Record.codeByte, hk, hcontrol]
      rfl
    · rw [hcell]
      cases x.record.place <;> rfl

end Sys2Proof.Machine
end

section
-- One theorem at a time: side by side the proofs ask for more threads than the sandbox grants.
set_option Elab.async false

/-! PROOFS. The snapshots of the link (R164 to R168, 11.3): each frame's reply, and every field of the data at its place: O52; and the AGENT
frame with its clear (R60, R168): O55. -/
namespace Sys2Proof.Machine

/-! ### The frames over the whole part (R164) -/

theorem exec_status {s : State} (h : s.link.frame ≠ .awaitRise) : exec .status s = .next (s.answered .ack s.statusBytes .nothing) :=
  congrArg Host.Outcome.next (State.atPointOfEffect_of_ne h _)

theorem exec_reservations {s : State} (h : s.link.frame ≠ .awaitRise) :
    exec .reservations s = .next (s.answered .ack s.monitor.reservationBytes .nothing) :=
  congrArg Host.Outcome.next (State.atPointOfEffect_of_ne h _)

theorem exec_holds {s : State} (h : s.link.frame ≠ .awaitRise) : exec .holds s = .next (s.answered .ack s.monitor.holdBytes .nothing) :=
  congrArg Host.Outcome.next (State.atPointOfEffect_of_ne h _)

theorem exec_region {s : State} (h : s.link.frame ≠ .awaitRise) (index : Byte) :
    exec (.region index) s =
      .next (if index.toNat < 16 then s.answered .ack (s.loader.regionBytes index.toNat) .nothing
        else s.answered .badarg [] .nothing) :=
  congrArg Host.Outcome.next (State.atPointOfEffect_of_ne h _)

/-- AGENT with arguments in range: the context, and what its completion will lower. -/
theorem exec_agent {s : State} (h : s.link.frame ≠ .awaitRise) {number clear : Byte} {a : Agent} (ha : number.toNat = a.val)
    (hclear : clear.toNat ≤ 1) :
    exec (.agent number clear) s =
      .next (s.answered .ack (s.monitor.ctx a).bytes
        (if clear = 1 then .lowerCounters a (s.monitor.ctx a).commits (s.monitor.ctx a).refusals else .nothing)) := by
  refine congrArg Host.Outcome.next ((State.atPointOfEffect_of_ne h _).trans ?_)
  have hlt : number.toNat < 16 := by have := a.isLt; omega
  have hagent : (⟨number.toNat, hlt⟩ : Agent) = a := Fin.ext ha
  rw [dif_pos hlt, hagent]
  by_cases h0 : clear = 0
  · rw [if_pos h0, h0]
    rfl
  · have h1 : clear = 1 := by bv_omega
    rw [if_neg h0, if_pos h1, if_pos h1]
    rfl

theorem exec_agent_badarg {s : State} (h : s.link.frame ≠ .awaitRise) {number clear : Byte}
    (hbad : 15 < number.toNat ∨ 1 < clear.toNat) : exec (.agent number clear) s = .next (s.answered .badarg [] .nothing) := by
  refine congrArg Host.Outcome.next ((State.atPointOfEffect_of_ne h _).trans ?_)
  by_cases hlt : number.toNat < 16
  · have h1 : 1 < clear.toNat := by omega
    rw [dif_pos hlt, if_neg fun h0 => by simp [h0] at h1, if_neg fun h2 => by simp [h2] at h1]
    rfl
  · rw [dif_neg hlt]
    rfl

theorem exec_badcmd {s : State} (h : s.link.frame ≠ .awaitRise) {byte : Byte} (hbyte : byte ∉ commandBytes) :
    exec (.badcmd byte) s = .next (s.answered .badcmd [] .nothing) := by
  change execBadcmd byte s = _
  have hunknown : ¬namesCommand byte = true := by simpa [namesCommand] using hbyte
  rw [execBadcmd, if_neg hunknown]
  exact congrArg Host.Outcome.next (State.atPointOfEffect_of_ne h _)

/-! ### STATUS (R166) -/

theorem PartState.code_spec (p : PartState) : ([.loading, .running, .draining, .fetching] : List PartState)[p.code.toNat]? = some p := by
  cases p <;> rfl

theorem CaptureState.code_spec (c : CaptureState) : ([.off, .running, .triggered, .frozen] : List CaptureState)[c.code.toNat]? = some c := by
  cases c <;> rfl

theorem toNat_flagByte (b : Bool) : (flagByte b).toNat = if b then 1 else 0 := by
  cases b <;> rfl

/-- Counting the four slots that have a property. -/
theorem Four.toNat_byteOf_countP {α : Type} (f : Four α) (p : α → Bool) :
    (byteOf (f.toList.countP p)).toNat = (([0, 1, 2, 3] : List (Fin 4)).filter fun i => p (f.get i)).length := by
  have hcount : f.toList.countP p = (([0, 1, 2, 3] : List (Fin 4)).filter fun i => p (f.get i)).length := by
    rw [← List.countP_eq_length_filter]
    exact List.countP_map (p := p) (f := f.get) (l := [0, 1, 2, 3])
  have hfour : f.toList.countP p ≤ 4 := List.countP_le_length
  rw [toNat_byteOf, ← hcount]
  omega

/-- Every field of STATUS at its place (11.3). -/
theorem State.leField_statusBytes (s : State) :
    leField s.statusBytes 0 1 = s.loader.part.code.toNat ∧ leField s.statusBytes 1 1 = (flagByte s.link.pause).toNat
      ∧ leField s.statusBytes 2 4 = s.loader.generation.toNat ∧ leField s.statusBytes 6 1 = (flagByte s.loader.valid).toNat
      ∧ leField s.statusBytes 7 1 = s.loader.regions.length % 256 ∧ leField s.statusBytes 8 1 = s.monitor.table.length % 256
      ∧ leField s.statusBytes 9 1 = (byteOf (s.monitor.slots.toList.countP fun h => !h.isFree)).toNat
      ∧ leField s.statusBytes 10 1 = s.monitor.waitList.length % 256
      ∧ leField s.statusBytes 11 1 = (byteOf s.tally.inUse).toNat
      ∧ leField s.statusBytes 12 1 = s.memory.outstanding.length % 256
      ∧ leField s.statusBytes 13 1 = s.capture.state.code.toNat ∧ leField s.statusBytes 14 1 = s.attention.flags.toNat
      ∧ leField s.statusBytes 15 1 = s.attention.mask.toNat := by
  rw [State.statusBytes, List.append_assoc]
  refine ⟨rfl, rfl, ?_, ?_, ?_, ?_, ?_, ?_, ?_, ?_, ?_, ?_, ?_⟩
  · rw [leField_append_right (by simp), leField_append_left (by simp)]
    exact leField_leBytes_word _
  all_goals
    rw [leField_append_right (by simp), leField_append_right (by simp)]
    simp only [List.length_cons, List.length_nil, leBytes_length, Nat.reduceSub, Nat.reduceAdd, leField_cons_succ, leField_cons_zero_one,
      toNat_byteOf]

/-- A set request sets its own bit of the flags byte, and no other (R171). -/
theorem testBit_flags_setFlag (s : State) (g : CauseFlag) (j : Nat) :
    (leField (s.setFlag g).statusBytes 14 1).testBit j = true ↔ (leField s.statusBytes 14 1).testBit j = true ∨ j = g.index := by
  obtain ⟨-, -, -, -, -, -, -, -, -, -, -, hflags, -⟩ := s.leField_statusBytes
  obtain ⟨-, -, -, -, -, -, -, -, -, -, -, hflags', -⟩ := (s.setFlag g).leField_statusBytes
  have hset : (s.setFlag g).attention.flags = s.attention.flags ||| g.bit := rfl
  rw [hflags, hflags', hset, g.bit_eq_twoPow, BitVec.toNat_or, Nat.testBit_or, Bool.or_eq_true,
    BitVec.toNat_twoPow_of_lt g.index_lt, Nat.testBit_two_pow, decide_eq_true_eq, eq_comm (a := j)]

/-! ### RESERVATIONS and HOLDS (R167) -/

theorem leField_of_getElem? {bs : List Byte} {k : Nat} {b : Byte} (h : bs[k]? = some b) : leField bs k 1 = b.toNat := by
  obtain ⟨hk, rfl⟩ := List.getElem?_eq_some_iff.1 h
  rw [leField, List.drop_eq_getElem_cons hk]
  exact leField_cons_zero_one _ _

/-- Every field of a table entry at its place (11.3). -/
theorem TableEntry.leField_bytes (e : TableEntry) :
    leField e.bytes 0 1 = e.agent.val ∧ leField e.bytes 1 1 = e.region % 256 ∧ leField e.bytes 2 4 = e.cell.toNat
      ∧ leField e.bytes 6 2 = e.lease % 65536 := by
  have hagent : e.agent.val % 256 = e.agent.val := Nat.mod_eq_of_lt (by have := e.agent.isLt; omega)
  have hbytes : e.bytes = byteOf e.agent.val :: byteOf e.region :: (leBytes 4 e.cell.toNat ++ leBytes 2 e.lease) := rfl
  rw [hbytes]
  refine ⟨by rw [leField_cons_zero_one, toNat_byteOf, hagent], by rw [leField_cons_succ, leField_cons_zero_one, toNat_byteOf], ?_, ?_⟩
  · rw [leField_cons_succ, leField_cons_succ, leField_append_left (by simp), leField_leBytes_word]
  · rw [leField_cons_succ, leField_cons_succ, leField_append_right (by simp), leBytes_length]
    exact leField_leBytes 2 e.lease

/-- Every field of a hold slot at its place; what does not apply is 0 (11.3). -/
theorem HoldSlot.leField_bytes (h : HoldSlot) :
    match h with
    | .free => leField h.bytes 0 9 = 0
    | .entitled a n =>
      leField h.bytes 0 1 = 1 ∧ leField h.bytes 1 1 = a.val ∧ leField h.bytes 2 5 = 0 ∧ leField h.bytes 7 2 = n % 65536
    | .holding a c r n =>
      leField h.bytes 0 1 = 2 ∧ leField h.bytes 1 1 = a.val ∧ leField h.bytes 2 1 = r % 256 ∧ leField h.bytes 3 4 = c.toNat
        ∧ leField h.bytes 7 2 = n % 65536 := by
  have hagent (a : Agent) : (byteOf a.val).toNat = a.val :=
    (toNat_byteOf _).trans (Nat.mod_eq_of_lt (by have := a.isLt; omega))
  cases h with
  | free => rfl
  | entitled a n =>
    have hbytes : (HoldSlot.entitled a n).bytes = 1 :: byteOf a.val :: ([0, 0, 0, 0, 0] ++ leBytes 2 n) := rfl
    dsimp only
    rw [hbytes]
    refine ⟨rfl, by rw [leField_cons_succ, leField_cons_zero_one, hagent], rfl, ?_⟩
    rw [leField_cons_succ, leField_cons_succ, leField_append_right (by simp)]
    exact leField_leBytes 2 n
  | holding a c r n =>
    have hbytes : (HoldSlot.holding a c r n).bytes = 2 :: byteOf a.val :: byteOf r :: (leBytes 4 c.toNat ++ leBytes 2 n) := rfl
    dsimp only
    rw [hbytes]
    refine ⟨rfl, by rw [leField_cons_succ, leField_cons_zero_one, hagent],
      by rw [leField_cons_succ, leField_cons_succ, leField_cons_zero_one, toNat_byteOf], ?_, ?_⟩
    · rw [leField_cons_succ, leField_cons_succ, leField_cons_succ, leField_append_left (by simp), leField_leBytes_word]
    · rw [leField_cons_succ, leField_cons_succ, leField_cons_succ, leField_append_right (by simp), leBytes_length]
      exact leField_leBytes 2 n

theorem Monitor.length_reservationBytes (m : Monitor) : m.reservationBytes.length = 1 + 8 * m.table.length := by
  simp [Monitor.reservationBytes, List.length_flatMap, List.map_const', List.sum_replicate_nat, Nat.add_comm, Nat.mul_comm]

/-- The row of an entry in RESERVATIONS. -/
theorem Monitor.leField_reservationBytes {m : Monitor} {k : Nat} {e : TableEntry} (he : m.table[k]? = some e) {off n : Nat}
    (h : off + n ≤ 8) : leField m.reservationBytes (8 * k + off + 1) n = leField e.bytes off n := by
  rw [Monitor.reservationBytes, leField_cons_succ, leField_flatMap TableEntry.bytes_length he h]

theorem Monitor.length_slotBytes (m : Monitor) : (m.slots.toList.flatMap HoldSlot.bytes).length = 36 := by
  simp [Four.toList]

/-- The row of a slot in HOLDS. -/
theorem Monitor.leField_holdBytes_slot (m : Monitor) (i : SlotIx) {off n : Nat} (h : off + n ≤ 9) :
    leField m.holdBytes (9 * i.val + off) n = leField (m.slots.get i).bytes off n := by
  have hslot : m.slots.toList[i.val]? = some (m.slots.get i) := by
    revert i
    rw [forall_fin_four]
    exact ⟨rfl, rfl, rfl, rfl⟩
  have hi := i.isLt
  rw [Monitor.holdBytes, leField_append_left (by rw [m.length_slotBytes]; omega), leField_flatMap HoldSlot.bytes_length hslot h]

/-- What follows the slots in HOLDS. -/
theorem Monitor.leField_holdBytes_waiting (m : Monitor) (k : Nat) :
    leField m.holdBytes 36 1 = m.waitList.length % 256
      ∧ ∀ a, m.waitList[k]? = some a → leField m.holdBytes (37 + k) 1 = a.val := by
  rw [Monitor.holdBytes]
  refine ⟨?_, fun a ha => ?_⟩
  · rw [leField_append_right (Nat.le_of_eq m.length_slotBytes), m.length_slotBytes, leField_cons_zero_one, toNat_byteOf]
  · rw [leField_append_right (by rw [m.length_slotBytes]; omega), m.length_slotBytes]
    have hoff : 37 + k - 36 = k + 1 := by omega
    rw [hoff, leField_cons_succ, leField_of_getElem? (b := byteOf a.val) (by rw [List.getElem?_map, ha]; rfl), toNat_byteOf]
    exact Nat.mod_eq_of_lt (by have := a.isLt; omega)

/-! ### REGION (R168) -/

theorem Loader.regionBytes_none {l : Loader} {i : Nat} (h : l.regions[i]? = none) : l.regionBytes i = List.replicate 18 0 := by
  rw [Loader.regionBytes, h]

theorem Loader.regionBytes_some {l : Loader} {i : Nat} {r : Region} (h : l.regions[i]? = some r) :
    l.regionBytes i = 1 :: (leBytes 4 r.base ++ (leBytes 4 r.length ++ r.kind.bytes)) := by
  rw [Loader.regionBytes, h]
  simp

theorem Loader.length_regionBytes (l : Loader) (i : Nat) : (l.regionBytes i).length = 18 := by
  cases h : l.regions[i]? with
  | none => rw [Loader.regionBytes_none h, List.length_replicate]
  | some r => rw [Loader.regionBytes_some h]; simp

/-- The fields of a region before its kind's, and where those stand. -/
theorem Loader.leField_regionBytes {l : Loader} {i : Nat} {r : Region} (h : l.regions[i]? = some r) :
    leField (l.regionBytes i) 0 1 = 1 ∧ leField (l.regionBytes i) 1 4 = r.base % 2 ^ 32
      ∧ leField (l.regionBytes i) 5 4 = r.length % 2 ^ 32
      ∧ ∀ off n, leField (l.regionBytes i) (off + 9) n = leField r.kind.bytes off n := by
  rw [Loader.regionBytes_some h]
  refine ⟨rfl, ?_, ?_, fun off n => ?_⟩
  · rw [leField_cons_succ, leField_append_left (by simp)]
    exact leField_leBytes 4 r.base
  · rw [leField_cons_succ, leField_append_right (by simp), leBytes_length, leField_append_left (by simp)]
    exact leField_leBytes 4 r.length
  · rw [leField_cons_succ, leField_append_right (by simp), leBytes_length, leField_append_right (by simp), leBytes_length]
    congr 1

/-- The fields of a region's kind; what the kind does not use is 0. -/
theorem RegionKind.leField_bytes (k : RegionKind) :
    match k with
    | .openRegion => leField k.bytes 0 9 = 0
    | .guarded lease hold threshold =>
      leField k.bytes 0 1 = 1 ∧ leField k.bytes 1 1 = 0 ∧ leField k.bytes 2 1 = threshold % 256 ∧ leField k.bytes 3 2 = lease % 65536
        ∧ leField k.bytes 5 2 = hold % 65536 ∧ leField k.bytes 7 2 = 0
    | .tally mode =>
      leField k.bytes 0 1 = 2 ∧ leField k.bytes 1 1 = (match mode with | .wrap => 0 | .saturate => 1) ∧ leField k.bytes 2 7 = 0
    | .fenced writers => leField k.bytes 0 1 = 3 ∧ leField k.bytes 1 6 = 0 ∧ leField k.bytes 7 2 = writers.toNat := by
  cases k with
  | openRegion => rfl
  | guarded lease hold threshold =>
    have hbytes : (RegionKind.guarded lease hold threshold).bytes =
        1 :: 0 :: byteOf threshold :: (leBytes 2 lease ++ (leBytes 2 hold ++ [0, 0])) := by
      simp [RegionKind.bytes]
      rfl
    dsimp only
    rw [hbytes]
    simp only [leField_cons_succ, leField_cons_zero_one, toNat_byteOf]
    refine ⟨rfl, rfl, trivial, ?_, ?_, ?_⟩
    · rw [leField_append_left (by simp)]
      exact leField_leBytes 2 lease
    · rw [leField_append_right (by simp), leBytes_length, leField_append_left (by simp)]
      exact leField_leBytes 2 hold
    · rw [leField_append_right (by simp), leBytes_length, leField_append_right (by simp)]
      rfl
  | tally mode => cases mode <;> exact ⟨rfl, rfl, rfl⟩
  | fenced writers =>
    have hbytes : (RegionKind.fenced writers).bytes = [3, 0, 0, 0, 0, 0, 0] ++ leBytes 2 writers.toNat := rfl
    dsimp only
    rw [hbytes]
    refine ⟨rfl, rfl, ?_⟩
    rw [leField_append_right (by simp)]
    exact (leField_leBytes 2 _).trans (Nat.mod_eq_of_lt writers.isLt)

/-- Settles O52: each frame by its equation, each field from its place in the bytes. -/
theorem snapshotsOnlyReply : Obligations.SnapshotsOnlyReply := by
  unfold Obligations.SnapshotsOnlyReply
  intro s hframe
  refine ⟨⟨exec_status hframe, exec_reservations hframe, exec_holds hframe, fun index => ?_,
    fun number clear hbad => exec_agent_badarg hframe hbad, fun byte hbyte => exec_badcmd hframe hbyte⟩,
    fun f hf => ?_, fun f hf => ?_, fun f hf => ?_, fun i f hf => ?_⟩
  · rw [exec_region hframe]
    by_cases hindex : index.toNat ≤ 15
    · rw [if_pos (Nat.lt_succ_of_le hindex), if_pos hindex]
    · rw [if_neg (by omega), if_neg hindex]
  · obtain ⟨hpart, hpause, hgen, hvalid, hregions, htable, hslots, hwait, htally, hout, hcapture, hflags, hmask⟩ := s.leField_statusBytes
    simp only [hf]
    refine ⟨by simp [State.statusBytes], ?_, hpause.trans (toNat_flagByte _), hgen, hvalid.trans (toNat_flagByte _), hregions, htable, ?_,
      hwait, htally.trans (Four.toNat_byteOf_countP _ _), hout, ?_, hflags, hmask, fun k g hg => ?_⟩
    · rw [hpart]
      exact PartState.code_spec _
    · rw [hslots, Four.toNat_byteOf_countP]
      refine congrArg List.length (List.filter_congr fun i _ => ?_)
      cases s.monitor.slots.get i <;> rfl
    · rw [hcapture]
      exact CaptureState.code_spec _
    · have hk : k = g.index := by
        obtain ⟨hlt, -⟩ := List.getElem?_eq_some_iff.1 hg
        exact (List.getElem?_inj hlt (by decide)).1 (hg.trans g.getElem?_index.symm)
      subst hk
      refine ⟨?_, fun j _ => testBit_flags_setFlag s g j⟩
      rw [g.bit_eq_twoPow, BitVec.toNat_twoPow_of_lt g.index_lt]
  · simp only [hf]
    refine ⟨s.monitor.length_reservationBytes, ?_, fun k e he => ?_⟩
    · rw [Monitor.reservationBytes, leField_cons_zero_one, toNat_byteOf]
    · obtain ⟨hagent, hregion, hcell, hlease⟩ := e.leField_bytes
      have hrow {off n : Nat} (h : off + n ≤ 8) : leField s.monitor.reservationBytes (off + 1 + 8 * k) n = leField e.bytes off n := by
        rw [← Monitor.leField_reservationBytes he h]
        congr 1
        omega
      exact ⟨(hrow (by omega)).trans hagent, (hrow (by omega)).trans hregion, (hrow (by omega)).trans hcell,
        (hrow (by omega)).trans hlease⟩
  · simp only [hf]
    refine ⟨?_, fun i => ?_, (s.monitor.leField_holdBytes_waiting 0).1, fun k a ha =>
      (s.monitor.leField_holdBytes_waiting k).2 a ha⟩
    · rw [Monitor.holdBytes, List.length_append, s.monitor.length_slotBytes]
      simp
      omega
    have hrow {off n : Nat} (h : off + n ≤ 9) := s.monitor.leField_holdBytes_slot i h
    have hfields := (s.monitor.slots.get i).leField_bytes
    cases hslot : s.monitor.slots.get i with
    | free =>
      rw [hslot] at hfields
      exact (hrow (off := 0) (by omega)).trans (by rw [hslot]; exact hfields)
    | entitled a n =>
      rw [hslot] at hfields hrow
      obtain ⟨hstate, hagent, hzero, hleft⟩ := hfields
      exact ⟨(hrow (off := 0) (by omega)).trans hstate, (hrow (by omega)).trans hagent, (hrow (by omega)).trans hzero,
        (hrow (by omega)).trans hleft⟩
    | holding a c r n =>
      rw [hslot] at hfields hrow
      obtain ⟨hstate, hagent, hregion, hcell, hleft⟩ := hfields
      exact ⟨(hrow (off := 0) (by omega)).trans hstate, (hrow (by omega)).trans hagent, (hrow (by omega)).trans hregion,
        (hrow (by omega)).trans hcell, (hrow (by omega)).trans hleft⟩
  · simp only [hf]
    refine ⟨Loader.length_regionBytes _ _, ?_⟩
    cases hregion : s.loader.regions[i]? with
    | none =>
      rw [Loader.regionBytes_none hregion]
      rfl
    | some r =>
      obtain ⟨hpresent, hbase, hlength, hkind⟩ := Loader.leField_regionBytes hregion
      refine ⟨hpresent, hbase, hlength, ?_⟩
      have hfields := r.kind.leField_bytes
      cases hk : r.kind with
      | openRegion =>
        rw [hk] at hfields
        exact (hkind 0 9).trans (by rw [hk]; exact hfields)
      | guarded lease hold threshold =>
        rw [hk] at hfields hkind
        obtain ⟨hcode, hmode, hthreshold, hlease, hhold, hzero⟩ := hfields
        exact ⟨(hkind 0 1).trans hcode, (hkind 1 1).trans hmode, (hkind 2 1).trans hthreshold, (hkind 3 2).trans hlease,
          (hkind 5 2).trans hhold, (hkind 7 2).trans hzero⟩
      | tally mode =>
        rw [hk] at hfields hkind
        obtain ⟨hcode, hmode, hzero⟩ := hfields
        exact ⟨(hkind 0 1).trans hcode, (hkind 1 1).trans (hmode.trans (by cases mode <;> rfl)), (hkind 2 7).trans hzero⟩
      | fenced writers =>
        rw [hk] at hfields hkind
        obtain ⟨hcode, hzero, hmask⟩ := hfields
        exact ⟨(hkind 0 1).trans hcode, (hkind 1 6).trans hzero, (hkind 7 2).trans hmask⟩

end Sys2Proof.Machine
end

section
-- One theorem at a time: side by side the proofs ask for more threads than the sandbox grants.
set_option Elab.async false

/-! PROOFS. The AGENT frame and its clear (R60, R168): O55; the ends of frames and the events the state does not enable (R163): O56. -/
namespace Sys2Proof.Machine

/-! ### The bytes of a context (R168) -/

theorem AgentState.code_spec (x : AgentState) : ([.normal, .waiting, .entitled, .holding] : List AgentState)[x.code.toNat]? = some x := by
  cases x <;> rfl

theorem Cause.toNat_statusCode (k : Cause) :
    k.status.code.toNat =
      if k ∈ [Cause.none, .saturated] then 0
      else if k ∈ [Cause.noReservation, .broken, .expired, .evicted, .displaced, .held, .fenced, .dropped] then 1
      else 2 := by
  cases k <;> rfl

theorem length_lossBytes (n : Nat) (l : List LossEntry) : (lossBytes n l).length = 5 * n := by
  induction n generalizing l with
  | zero => rfl
  | succ n ih => cases l <;> simp [lossBytes, ih] <;> omega

/-- The rows of the loss entries, unused ones 0. -/
theorem leField_lossBytes {n k : Nat} (hk : k < n) {off m : Nat} (hoff : off + m ≤ 5) (l : List LossEntry) :
    leField (lossBytes n l) (5 * k + off) m =
      match l[k]? with
      | some e => leField e.bytes off m
      | none => leField (List.replicate 5 0) off m := by
  induction n generalizing k l with
  | zero => omega
  | succ n ih =>
    cases k with
    | zero =>
      cases l with
      | nil =>
        refine (leField_append_left ?_).trans ?_
        · simp only [List.length_replicate]; omega
        · rw [Nat.mul_zero, Nat.zero_add]; rfl
      | cons e l =>
        refine (leField_append_left ?_).trans ?_
        · rw [LossEntry.bytes_length]; omega
        · rw [Nat.mul_zero, Nat.zero_add]; rfl
    | succ k =>
      have hrow : 5 * (k + 1) + off - 5 = 5 * k + off := by omega
      cases l with
      | nil =>
        have hrest := ih (Nat.lt_of_succ_lt_succ hk) []
        rw [lossBytes, leField_append_right (by simp; omega), List.length_replicate, hrow, hrest]
        rfl
      | cons e l =>
        have hrest := ih (Nat.lt_of_succ_lt_succ hk) l
        rw [lossBytes, leField_append_right (by simp; omega), LossEntry.bytes_length, hrow, hrest]
        rfl

/-- A loss entry's cell and cause. -/
theorem LossEntry.leField_bytes (e : LossEntry) : leField e.bytes 0 4 = e.cell.toNat ∧ leField e.bytes 4 1 = e.cause.code.toNat := by
  rw [LossEntry.bytes]
  refine ⟨?_, ?_⟩
  · rw [leField_append_left (by simp), leField_leBytes_word]
  · rw [leField_append_right (by simp), leBytes_length, leField_cons_zero_one]

/-- A context in 29 bytes: its own fields, then the loss entries. -/
theorem AgentCtx.leField_bytes (x : AgentCtx) :
    leField x.bytes 0 1 = x.state.code.toNat ∧ leField x.bytes 1 1 = x.streak % 256 ∧ leField x.bytes 2 2 = x.commits % 65536
      ∧ leField x.bytes 4 2 = x.refusals % 65536 ∧ leField x.bytes 6 1 = x.verdict.status.code.toNat
      ∧ leField x.bytes 7 1 = x.verdict.code.toNat ∧ leField x.bytes 8 1 = x.loss.length % 256
      ∧ ∀ off n, leField x.bytes (off + 9) n = leField (lossBytes 4 x.loss) off n := by
  have hbytes : x.bytes = x.state.code :: byteOf x.streak :: (leBytes 2 x.commits ++ (leBytes 2 x.refusals
      ++ (x.verdict.status.code :: x.verdict.code :: byteOf x.loss.length :: lossBytes 4 x.loss))) := by
    simp [AgentCtx.bytes, Config.lossSize]
  rw [hbytes]
  refine ⟨leField_cons_zero_one _ _, by rw [leField_cons_succ, leField_cons_zero_one, toNat_byteOf], ?_, ?_, ?_, ?_, ?_, fun off n => ?_⟩
  · rw [leField_cons_succ, leField_cons_succ, leField_append_left (by simp)]
    exact leField_leBytes 2 _
  · rw [leField_cons_succ, leField_cons_succ, leField_append_right (by simp), leBytes_length, leField_append_left (by simp)]
    exact leField_leBytes 2 _
  all_goals
    rw [leField_cons_succ, leField_cons_succ, leField_append_right (by simp), leBytes_length, leField_append_right (by simp),
      leBytes_length]
  · exact leField_cons_zero_one _ _
  · exact leField_cons_zero_one _ _
  · exact (leField_cons_zero_one _ _).trans (toNat_byteOf _)
  · have hoff : off + 7 - 2 - 2 = off + 1 + 1 + 1 := by omega
    rw [hoff, leField_cons_succ, leField_cons_succ, leField_cons_succ]

/-! ### The completion of the clear (R60) -/

theorem exec_agentClear {s : State} {st : LinkStatus} {data : List Byte} {a : Agent} {commits refusals : Nat}
    (h : s.link.frame = .replied st data (.lowerCounters a commits refusals)) :
    exec .agentClear s =
      .next { s with link := { s.link with frame := .between }, monitor := s.monitor.lowerCounters a commits refusals } := by
  change execAgentClear s = _
  rw [execAgentClear, h]

theorem exec_agentClear_cancelled {s : State} {st : LinkStatus} {data : List Byte} (h : s.link.frame = .replied st data .clearCancelled) :
    exec .agentClear s = .next { s with link := { s.link with frame := .between } } := by
  change execAgentClear s = _
  rw [execAgentClear, h]

/-- A completion without its frame changes nothing. -/
theorem exec_agentClear_idle {s : State} (hnone : ∀ st data a n k, s.link.frame ≠ .replied st data (.lowerCounters a n k))
    (hcancelled : ∀ st data, s.link.frame ≠ .replied st data .clearCancelled) : exec .agentClear s = .next s := by
  change execAgentClear s = _
  unfold execAgentClear
  cases hframe : s.link.frame with
  | between => rfl
  | awaitRise => rfl
  | replied st data c =>
    cases c with
    | nothing => rfl
    | clearCauses shown => rfl
    | lowerCounters a n k => exact absurd hframe (hnone st data a n k)
    | clearCancelled => exact absurd hframe (hcancelled st data)

/-- A port reset cancels the clear of an agent of its port, and leaves the reply. -/
theorem State.portReset_link_of_lowerCounters {s : State} {st : LinkStatus} {data : List Byte} {a : Agent} {commits refusals : Nat}
    (h : s.link.frame = .replied st data (.lowerCounters a commits refusals)) :
    (s.portReset (portOf a)).link = { s.link with frame := .replied st data .clearCancelled } := by
  simp [State.portReset, State.updPort, LinkFrame.cancelClear, h]

/-- What MISO carries does not depend on what completion will do. -/
theorem LinkFrame.miso_completion (st : LinkStatus) (data : List Byte) (c d : Completion) (k : Nat) :
    (LinkFrame.replied st data c).miso k = (LinkFrame.replied st data d).miso k := by
  cases st <;> rfl

/-- Settles O55: the frame and its completion by their equations, the context field by field. -/
theorem agentFrames : Obligations.AgentFrames := by
  unfold Obligations.AgentFrames
  refine ⟨fun s number clear a hframe ha hclear => exec_agent hframe ha hclear, fun x f causes hf hcauses => ?_,
    fun s st data a commits refusals hframe => ⟨⟨s.monitor.lowerCounters a commits refusals, exec_agentClear hframe, rfl, rfl, rfl,
      fun b => ?_⟩, fun hline => ⟨s.portReset (portOf a), exec_portReset hline, ?_, fun k => ?_⟩,
      s.endFrame, exec_frameCutShortAfterPointOfEffect s, rfl, exec_agentClear_idle (fun _ _ _ _ _ h => ?_) (fun _ _ h => ?_)⟩⟩
  · obtain ⟨hstate, hstreak, hcommits, hrefusals, hstatus, hcause, hcount, hloss⟩ := x.leField_bytes
    subst hcauses
    simp only [hf]
    refine ⟨?_, ?_, hstreak, hcommits, hrefusals, hstatus.trans x.verdict.toNat_statusCode, ?_, hcount, fun k hk => ⟨fun e he => ⟨?_, ?_⟩,
      fun hnone => ?_⟩⟩
    · simp [AgentCtx.bytes, length_lossBytes, Config.lossSize]
    · rw [hstate]
      exact AgentState.code_spec _
    · rw [hcause]
      exact causesByCode_code _
    · have hrow := leField_lossBytes hk (off := 0) (m := 4) (by omega) x.loss
      rw [he] at hrow
      rw [Nat.add_comm 9, hloss]
      exact hrow.trans e.leField_bytes.1
    · have hrow := leField_lossBytes hk (off := 4) (m := 1) (by omega) x.loss
      have hoff : 13 + 5 * k = 5 * k + 4 + 9 := by omega
      rw [he] at hrow
      rw [hoff, hloss, hrow.trans e.leField_bytes.2]
      exact causesByCode_code _
    · have hrow := leField_lossBytes hk (off := 0) (m := 5) (by omega) x.loss
      rw [hnone] at hrow
      rw [Nat.add_comm 9, hloss]
      exact hrow
  · rw [Monitor.lowerCounters, Monitor.ctx_updCtx]
    by_cases hb : b = a
    · subst hb
      simp
    · simp [hb]
  · have hlink := State.portReset_link_of_lowerCounters hframe
    rw [exec_agentClear_cancelled (s := s.portReset (portOf a)) (by rw [hlink]), hlink]
  · rw [State.portReset_link_of_lowerCounters hframe, hframe]
    exact LinkFrame.miso_completion ..
  · cases h
  · cases h

/-! ### Ends of frames and idle events (R163) -/

theorem exec_causesCompletion_idle {s : State} (hnone : ∀ st data shown, s.link.frame ≠ .replied st data (.clearCauses shown)) :
    exec .causesCompletion s = .next s := by
  change execCausesCompletion s = _
  unfold execCausesCompletion
  cases hframe : s.link.frame with
  | between => rfl
  | awaitRise => rfl
  | replied st data c =>
    cases c with
    | nothing => rfl
    | clearCauses shown => exact absurd hframe (hnone st data shown)
    | lowerCounters a n k => rfl
    | clearCancelled => rfl

theorem State.atPointOfEffect_of_awaitRise {s : State} (h : s.link.frame = .awaitRise) (f : State → State) : s.atPointOfEffect f = s := by
  rw [State.atPointOfEffect, h]

/-- While the controller waits for CS_n to rise, a frame's command changes nothing. -/
theorem exec_of_awaitRise {s : State} (h : s.link.frame = .awaitRise) {c : Instr} {bytes : List Byte} (hc : encodeFrame c = some bytes) :
    exec c s = .next s := by
  have heffect (f : State → State) : Host.Outcome.next (s.atPointOfEffect f) = (.next s : Host.Outcome State Fault Refusal) :=
    congrArg _ (State.atPointOfEffect_of_awaitRise h f)
  cases c with
  | status | causes | setmask | agent | reservations | holds | region | captureSetup | captureArm | captureStop | captureRead
  | monitorReset | halt | resume => exact heffect _
  | badcmd b =>
    change execBadcmd b s = _
    unfold execBadcmd
    split
    · rfl
    · exact heffect _
  | powerOnReset | portReset | prstDeasserted | acceptance | admission | writeHalfIssue | loaderReadIssue | memoryResponse
  | memoryTimeout | fetching | responseDeparture | timeBaseTick | leaseExpiry | entitlementExpiry | holdLimitExpiry | causesCompletion
  | agentClear | frameCutShort | frameCutShortAfterPointOfEffect => cases hc

/-- Settles O56: each event by the branch it does not take. -/
theorem frameEndsAndIdleEvents : Obligations.FrameEndsAndIdleEvents := by
  unfold Obligations.FrameEndsAndIdleEvents
  refine ⟨fun s => ⟨rfl, rfl⟩, fun s a c hrunning => ?_, fun s i hrunning => ?_, fun s i hrunning => ?_,
    fun s hnone => exec_causesCompletion_idle hnone, fun s hnone hcancelled => exec_agentClear_idle hnone hcancelled,
    fun c s bytes hc hframe => exec_of_awaitRise hframe hc⟩
  · refine congrArg Host.Outcome.next ?_
    rcases s.monitor.leaseExpiry_cases a c with ⟨e, he, hzero, -⟩ | ⟨-, hexpiry⟩
    · obtain ⟨hmem, hagent, hcell⟩ := Monitor.entry_some he
      exact absurd hzero (hrunning e hmem hagent hcell)
    · rw [State.leaseExpiry, hexpiry, State.takeMonitor_nothing]
  · refine congrArg Host.Outcome.next ?_
    rcases s.monitor.entitlementExpiry_cases i s.loader.entitlementLimit with ⟨a, ha, -⟩ | ⟨-, hexpiry⟩
    · exact absurd ha (hrunning a)
    · rw [State.entitlementExpiry, hexpiry, State.takeMonitor_nothing]
  · refine congrArg Host.Outcome.next ?_
    rcases s.monitor.holdExpiry_cases i s.loader.entitlementLimit with ⟨a, c, r, ha, -⟩ | ⟨-, hexpiry⟩
    · exact absurd ha (hrunning a c r)
    · rw [State.holdExpiry, hexpiry, State.takeMonitor_nothing]

end Sys2Proof.Machine
end

section
-- One theorem at a time: side by side the proofs ask for more threads than the sandbox grants.
set_option Elab.async false

/-! PROOFS. The frames of the link (R162 to R164, 11.3): the bytes of a command and the command of the bytes, and what MISO carries: O57. -/
namespace Sys2Proof

/-! ### Words and their bytes (R178) -/

/-- A byte at the low end of a word. -/
theorem toNat_append_byte {n : Nat} (x : BitVec n) (b : Byte) : (x ++ b).toNat = 256 * x.toNat + b.toNat := by
  rw [BitVec.toNat_append, ← Nat.shiftLeft_add_eq_or_of_lt b.isLt, Nat.shiftLeft_eq, Nat.mul_comm]

theorem leBytes_append_byte {n : Nat} (x : BitVec n) (b : Byte) (k : Nat) : leBytes (k + 1) (x ++ b).toNat = b :: leBytes k x.toNat := by
  have hb := b.isLt
  have hlow : BitVec.ofNat 8 (256 * x.toNat + b.toNat) = b := BitVec.eq_of_toNat_eq (by rw [BitVec.toNat_ofNat]; omega)
  have hhigh : (256 * x.toNat + b.toNat) / 256 = x.toNat := by omega
  rw [toNat_append_byte, leBytes, hlow, hhigh]

theorem leBytes_byte (b : Byte) : leBytes 1 b.toNat = [b] := by
  rw [leBytes, leBytes, BitVec.ofNat_toNat, BitVec.setWidth_eq]

/-- The two bytes of a half word, and the half word of two bytes. -/
theorem leBytes_two (b1 b0 : Byte) : leBytes 2 (b1 ++ b0).toNat = [b0, b1] := by
  rw [leBytes_append_byte, leBytes_byte]

theorem leBytes_three (b2 b1 b0 : Byte) : leBytes 3 (b2 ++ b1 ++ b0).toNat = [b0, b1, b2] := by
  rw [leBytes_append_byte, leBytes_append_byte, leBytes_byte]

theorem leBytes_four (b3 b2 b1 b0 : Byte) : leBytes 4 (b3 ++ b2 ++ b1 ++ b0).toNat = [b0, b1, b2, b3] := by
  rw [leBytes_append_byte, leBytes_append_byte, leBytes_append_byte, leBytes_byte]

theorem exists_two_bytes (v : BitVec 16) : ∃ b1 b0 : Byte, v = b1 ++ b0 := by
  refine ⟨BitVec.ofNat 8 (v.toNat / 256), BitVec.ofNat 8 v.toNat, BitVec.eq_of_toNat_eq ?_⟩
  have hv := v.isLt
  rw [toNat_append_byte, BitVec.toNat_ofNat, BitVec.toNat_ofNat]
  omega

theorem exists_three_bytes (v : BitVec 24) : ∃ b2 b1 b0 : Byte, v = b2 ++ b1 ++ b0 := by
  refine ⟨BitVec.ofNat 8 (v.toNat / 65536), BitVec.ofNat 8 (v.toNat / 256), BitVec.ofNat 8 v.toNat, BitVec.eq_of_toNat_eq ?_⟩
  have hv := v.isLt
  rw [toNat_append_byte, toNat_append_byte, BitVec.toNat_ofNat, BitVec.toNat_ofNat, BitVec.toNat_ofNat]
  omega

theorem exists_four_bytes (v : BitVec 32) : ∃ b3 b2 b1 b0 : Byte, v = b3 ++ b2 ++ b1 ++ b0 := by
  refine ⟨BitVec.ofNat 8 (v.toNat / 16777216), BitVec.ofNat 8 (v.toNat / 65536), BitVec.ofNat 8 (v.toNat / 256), BitVec.ofNat 8 v.toNat,
    BitVec.eq_of_toNat_eq ?_⟩
  have hv := v.isLt
  rw [toNat_append_byte, toNat_append_byte, toNat_append_byte, BitVec.toNat_ofNat, BitVec.toNat_ofNat, BitVec.toNat_ofNat,
    BitVec.toNat_ofNat]
  omega

/-! ### The arguments of CAPTURE_SETUP (R159) -/

/-- Sixteen bytes are the arguments they spell. -/
theorem encodeSetup_decodeSetup {bytes : List Byte} {a : SetupArgs} (h : decodeSetup bytes = some a) :
    ∃ clocked, bytes = encodeSetup a ++ clocked := by
  unfold decodeSetup at h
  split at h
  · cases h
    simp only [encodeSetup, leBytes_two, leBytes_three, leBytes_four]
    exact ⟨_, rfl⟩
  · cases h

/-- The arguments are read back from their sixteen bytes. -/
theorem decodeSetup_encodeSetup (a : SetupArgs) (clocked : List Byte) : decodeSetup (encodeSetup a ++ clocked) = some a := by
  obtain ⟨kinds, regions, agents, kind, flags, agent, cell, count, position⟩ := a
  obtain ⟨k1, k0, rfl⟩ := exists_two_bytes kinds
  obtain ⟨r2, r1, r0, rfl⟩ := exists_three_bytes regions
  obtain ⟨a1, a0, rfl⟩ := exists_two_bytes agents
  obtain ⟨c3, c2, c1, c0, rfl⟩ := exists_four_bytes cell
  simp only [encodeSetup, leBytes_two, leBytes_three, leBytes_four]
  rfl

theorem decodeSetup_of_short {bytes : List Byte} (h : bytes.length < 16) : decodeSetup bytes = none := by
  unfold decodeSetup
  split
  · simp only [List.length_cons] at h
    omega
  · rfl

/-! ### Decoding a frame (R162) -/

/-- Every byte that names no command is answered as such (R164). -/
theorem decodeFrame_unknown {b : Byte} (h : namesCommand b = false) (args : List Byte) : decodeFrame (b :: args) = some (.badcmd b) := by
  simp only [namesCommand, commandBytes, List.contains_cons, List.contains_nil, Bool.or_eq_false_iff, Bool.or_false] at h
  obtain ⟨h1, h2, h3, h4, h5, h6, h7, h8, h9, h10, h11, h12, h13, h14⟩ := h
  simp only [decodeFrame, h1, h2, h3, h4, h5, h6, h7, h8, h9, h10, h11, h12, h13, h14, Bool.false_eq_true, if_false]

/-- The bytes begin with those of the command. -/
def Carries (bytes : List Byte) (c : Instr) : Prop :=
  c.wellFormed = true ∧ ∃ sent clocked, bytes = sent ++ clocked ∧ encodeFrame c = some sent

theorem carries_of_encodeFrame {c : Instr} {sent clocked : List Byte} (hwf : c.wellFormed = true) (henc : encodeFrame c = some sent) :
    Carries (sent ++ clocked) c := ⟨hwf, sent, clocked, rfl, henc⟩

/-- What decodes begins with the bytes of its command. -/
theorem carries_of_decodeFrame {bytes : List Byte} {c : Instr} (h : decodeFrame bytes = some c) : Carries bytes c := by
  cases bytes with
  | nil => cases h
  | cons b args =>
    by_cases hb : namesCommand b = true
    · simp only [namesCommand, commandBytes, List.contains_iff_mem, List.mem_cons, List.not_mem_nil, or_false] at hb
      rcases hb with rfl | rfl | rfl | rfl | rfl | rfl | rfl | rfl | rfl | rfl | rfl | rfl | rfl | rfl
      · cases h; exact carries_of_encodeFrame (sent := [0x01#8]) rfl rfl
      · cases h; exact carries_of_encodeFrame (sent := [0x02#8]) rfl rfl
      · match args, h with
        | m :: clocked, h => cases h; exact carries_of_encodeFrame (sent := [0x03#8, m]) rfl rfl
      · match args, h with
        | n :: clear :: clocked, h => cases h; exact carries_of_encodeFrame (sent := [0x04#8, n, clear]) rfl rfl
      · cases h; exact carries_of_encodeFrame (sent := [0x05#8]) rfl rfl
      · cases h; exact carries_of_encodeFrame (sent := [0x06#8]) rfl rfl
      · match args, h with
        | i :: clocked, h => cases h; exact carries_of_encodeFrame (sent := [0x07#8, i]) rfl rfl
      · obtain ⟨a, ha, rfl⟩ := Option.map_eq_some_iff.1 (h : (decodeSetup args).map Instr.captureSetup = some c)
        obtain ⟨clocked, rfl⟩ := encodeSetup_decodeSetup ha
        exact carries_of_encodeFrame (sent := 0x10#8 :: encodeSetup a) rfl rfl
      · cases h; exact carries_of_encodeFrame (sent := [0x11#8]) rfl rfl
      · cases h; exact carries_of_encodeFrame (sent := [0x12#8]) rfl rfl
      · match args, h with
        | i :: n0 :: n1 :: clocked, h =>
          cases h
          exact carries_of_encodeFrame (sent := [0x13#8, i, n0, n1]) rfl (by rw [encodeFrame, leBytes_two])
      · cases h; exact carries_of_encodeFrame (sent := [0x20#8]) rfl rfl
      · cases h; exact carries_of_encodeFrame (sent := [0x21#8]) rfl rfl
      · cases h; exact carries_of_encodeFrame (sent := [0x22#8]) rfl rfl
    · rw [Bool.not_eq_true] at hb
      rw [decodeFrame_unknown hb] at h
      cases h
      exact carries_of_encodeFrame (sent := [b]) (by rw [Instr.wellFormed, hb]; rfl) rfl

/-- A command is decoded from its bytes, whatever follows them, and not from fewer. -/
theorem decodeFrame_of_encodeFrame {c : Instr} {sent : List Byte} (hwf : c.wellFormed = true) (h : encodeFrame c = some sent)
    (clocked : List Byte) :
    decodeFrame (sent ++ clocked) = some c ∧ ∀ k, k < sent.length → decodeFrame (sent.take k) = none := by
  have hfirst {b : Byte} {k : Nat} (hk : k < [b].length) : decodeFrame ([b].take k) = none := by
    obtain rfl : k = 0 := by simpa using hk
    rfl
  cases c with
  | status | causes | reservations | holds | captureArm | captureStop | monitorReset | halt | resume =>
    cases h
    exact ⟨rfl, fun k hk => hfirst hk⟩
  | badcmd b =>
    cases h
    exact ⟨decodeFrame_unknown (by simpa [Instr.wellFormed] using hwf) clocked, fun k hk => hfirst hk⟩
  | setmask m | region i =>
    cases h
    refine ⟨rfl, fun k hk => ?_⟩
    match k, hk with
    | 0, _ | 1, _ => rfl
  | agent n clear =>
    cases h
    refine ⟨rfl, fun k hk => ?_⟩
    match k, hk with
    | 0, _ | 1, _ | 2, _ => rfl
  | captureRead i n =>
    obtain ⟨n1, n0, rfl⟩ := exists_two_bytes n
    rw [encodeFrame, leBytes_two] at h
    cases h
    refine ⟨rfl, fun k hk => ?_⟩
    match k, hk with
    | 0, _ | 1, _ | 2, _ | 3, _ => rfl
  | captureSetup a =>
    cases h
    have hlength : (encodeSetup a).length = 16 := by simp [encodeSetup]
    refine ⟨congrArg (Option.map Instr.captureSetup) (decodeSetup_encodeSetup a clocked), fun k hk => ?_⟩
    cases k with
    | zero => rfl
    | succ k =>
      rw [List.length_cons, hlength] at hk
      have hshort : decodeSetup ((encodeSetup a).take k) = none := decodeSetup_of_short (by rw [List.length_take]; omega)
      exact congrArg (Option.map Instr.captureSetup) hshort
  | powerOnReset | portReset | prstDeasserted | acceptance | admission | writeHalfIssue | loaderReadIssue | memoryResponse
  | memoryTimeout | fetching | responseDeparture | timeBaseTick | leaseExpiry | entitlementExpiry | holdLimitExpiry | causesCompletion
  | agentClear | frameCutShort | frameCutShortAfterPointOfEffect => cases h

end Sys2Proof

namespace Sys2Proof.Machine

/-! ### The reply (R164) -/

/-- The command leaves the controller with the reply, BADCMD exactly for an unknown command byte. -/
def Replies (c : Instr) (s : State) : Prop :=
  ∃ t st data done, exec c s = .next t ∧ t.link.frame = .replied st data done ∧ (st = .badcmd ↔ ∃ b, c = .badcmd b)

/-- A frame's command takes its effect and replies. -/
theorem replies_of_encodeFrame {c : Instr} {sent : List Byte} {s : State} (hwf : c.wellFormed = true) (h : encodeFrame c = some sent)
    (hframe : s.link.frame ≠ .awaitRise) : Replies c s := by
  have hnot {st : LinkStatus} (hst : st ≠ .badcmd) (hc : ∀ b, c ≠ .badcmd b) : st = .badcmd ↔ ∃ b, c = .badcmd b :=
    iff_of_false hst fun ⟨b, hb⟩ => hc b hb
  have heffect {f : State → State} {st : LinkStatus} {data : List Byte} {done : Completion}
      (hexec : exec c s = .next (s.atPointOfEffect f)) (hreply : (f s.endFrame).link.frame = .replied st data done)
      (hst : st ≠ .badcmd) (hc : ∀ b, c ≠ .badcmd b) : Replies c s :=
    ⟨_, st, data, done, hexec, by rw [State.atPointOfEffect_of_ne hframe, hreply], hnot hst hc⟩
  cases c with
  | status | causes | setmask | reservations | holds | captureArm | monitorReset | halt | resume =>
    exact heffect rfl rfl (by simp) (by simp)
  | region i =>
    by_cases hi : i.toNat < 16
    · exact ⟨_, _, _, _, exec_region hframe i, by rw [if_pos hi]; rfl, hnot (by simp) (by simp)⟩
    · exact ⟨_, _, _, _, exec_region hframe i, by rw [if_neg hi]; rfl, hnot (by simp) (by simp)⟩
  | captureStop =>
    by_cases hidle : s.capture.idle = true
    · exact ⟨_, _, _, _, exec_captureStop hframe, by rw [if_pos hidle]; rfl, hnot (by simp) (by simp)⟩
    · exact ⟨_, _, _, _, exec_captureStop hframe, by rw [if_neg hidle]; rfl, hnot (by simp) (by simp)⟩
  | agent n clear =>
    by_cases hbad : 15 < n.toNat ∨ 1 < clear.toNat
    · exact ⟨_, _, _, _, exec_agent_badarg hframe hbad, rfl, hnot (by simp) (by simp)⟩
    · exact ⟨_, _, _, _, exec_agent hframe (a := ⟨n.toNat, by omega⟩) rfl (by omega), rfl, hnot (by simp) (by simp)⟩
  | captureRead i n =>
    by_cases hidle : s.capture.idle = true
    · by_cases hbad : n.toNat = 0 ∨ 256 < n.toNat
      · exact ⟨_, _, _, _, exec_captureRead hframe i n, by rw [if_pos hidle, if_pos hbad]; rfl, hnot (by simp) (by simp)⟩
      · exact ⟨_, _, _, _, exec_captureRead hframe i n, by rw [if_pos hidle, if_neg hbad]; rfl, hnot (by simp) (by simp)⟩
    · exact ⟨_, _, _, _, exec_captureRead hframe i n, by rw [if_neg hidle]; rfl, hnot (by simp) (by simp)⟩
  | captureSetup a =>
    by_cases hidle : s.capture.idle = true
    · by_cases hbad : OutOfRange a
      · exact ⟨_, _, _, _, exec_captureSetup hframe a, by rw [if_pos hidle, Setup.ofArgs_of_outOfRange hbad]; rfl,
          hnot (by simp) (by simp)⟩
      · exact ⟨_, _, _, _, exec_captureSetup hframe a, by rw [if_pos hidle, Setup.ofArgs_of_inRange hbad]; rfl,
          hnot (by simp) (by simp)⟩
    · exact ⟨_, _, _, _, exec_captureSetup hframe a, by rw [if_neg hidle]; rfl, hnot (by simp) (by simp)⟩
  | badcmd b =>
    have hb : b ∉ commandBytes := by simpa [Instr.wellFormed, namesCommand] using hwf
    exact ⟨_, _, _, _, exec_badcmd hframe hb, rfl, iff_of_true rfl ⟨b, rfl⟩⟩
  | powerOnReset | portReset | prstDeasserted | acceptance | admission | writeHalfIssue | loaderReadIssue | memoryResponse
  | memoryTimeout | fetching | responseDeparture | timeBaseTick | leaseExpiry | entitlementExpiry | holdLimitExpiry | causesCompletion
  | agentClear | frameCutShort | frameCutShortAfterPointOfEffect => cases h

/-- What MISO carries in the bytes of a frame: 00H, then the status, with ACK the data, then 00H; with BADCMD the status in every byte. -/
theorem LinkFrame.shiftsOut_replied (st : LinkStatus) (data : List Byte) (done : Completion) {n k : Nat} (hk : n ≤ k) :
    (LinkFrame.replied st data done).shiftsOut n k =
      match st with
      | .ack => if k = n then 0x01#8 else data.getD (k - n - 1) 0x00#8
      | .busy => if k = n then 0x02#8 else 0x00#8
      | .badarg => if k = n then 0x04#8 else 0x00#8
      | .badcmd => 0x03#8 := by
  rw [LinkFrame.shiftsOut, if_neg (Nat.not_lt.2 hk)]
  have hzero : k - n = 0 ↔ k = n := by omega
  cases st <;> simp only [LinkFrame.miso, hzero, List.getD_eq_getElem?_getD] <;> rfl

/-- Settles O57: each command with its bytes; the reply by its status. -/
theorem frameRoundTrip : Obligations.FrameRoundTrip := by
  unfold Obligations.FrameRoundTrip
  refine ⟨fun c sent clocked hwf hsent => decodeFrame_of_encodeFrame hwf hsent clocked, fun bytes c h => carries_of_decodeFrame h,
    fun c sent s hwf hsent hframe => ?_⟩
  obtain ⟨t, st, data, done, hexec, hreply, hst⟩ := replies_of_encodeFrame hwf hsent hframe
  refine ⟨t, st, data, done, hexec, hreply, hst, fun k => ?_⟩
  rw [hreply]
  by_cases hk : k < sent.length
  · rw [if_pos hk, LinkFrame.shiftsOut, if_pos hk]
    rfl
  · rw [if_neg hk]
    exact (LinkFrame.shiftsOut_replied st data done (Nat.not_lt.1 hk)).trans (by cases st <;> rfl)

end Sys2Proof.Machine
end

section
-- One theorem at a time: side by side the proofs ask for more threads than the sandbox grants.
set_option Elab.async false

/-! PROOFS. The capture unit and the attention logic report on the data path and take no part in it (00_scope.md, Block overview): each
operation does the same to the other blocks whatever these two hold; then O51. -/
namespace Sys2Proof.Machine

/-- The states agree in every block but the capture unit and the attention logic. -/
def State.SameBlocks (s t : State) : Prop := ∃ c a, t = { s with capture := c, attention := a }

namespace State.SameBlocks

variable {s t u : State}

theorem refl (s : State) : s.SameBlocks s := ⟨s.capture, s.attention, rfl⟩

theorem symm (h : s.SameBlocks t) : t.SameBlocks s := by
  obtain ⟨c, a, rfl⟩ := h
  exact ⟨s.capture, s.attention, rfl⟩

theorem trans (h : s.SameBlocks t) (h' : t.SameBlocks u) : s.SameBlocks u := by
  obtain ⟨c, a, rfl⟩ := h
  obtain ⟨c', a', rfl⟩ := h'
  exact ⟨c', a', rfl⟩

/-! ### Reports (R152, R171) -/

theorem of_offer (s : State) (r : Record) : s.SameBlocks (s.offer r) := by
  refine ⟨(s.offer r).capture, (s.offer r).attention, ?_⟩
  rw [State.mk.injEq]
  simp

theorem of_setFlag (s : State) (f : CauseFlag) : s.SameBlocks (s.setFlag f) := ⟨s.capture, s.attention.raise f, rfl⟩

theorem of_takeMonitor (s : State) (x : MonitorStep) : ({ s with monitor := x.monitor } : State).SameBlocks (s.takeMonitor x) := by
  refine ⟨(s.takeMonitor x).capture, (s.takeMonitor x).attention, ?_⟩
  rw [State.mk.injEq]
  simp

theorem offer (h : s.SameBlocks t) (r : Record) : (s.offer r).SameBlocks (t.offer r) :=
  ((of_offer s r).symm.trans h).trans (of_offer t r)

theorem setFlag (h : s.SameBlocks t) (f : CauseFlag) : (s.setFlag f).SameBlocks (t.setFlag f) :=
  ((of_setFlag s f).symm.trans h).trans (of_setFlag t f)

theorem takeMonitor (h : s.SameBlocks t) (x : MonitorStep) : (s.takeMonitor x).SameBlocks (t.takeMonitor x) := by
  have hmonitor : ({ s with monitor := x.monitor } : State).SameBlocks { t with monitor := x.monitor } := by
    obtain ⟨c, a, rfl⟩ := h
    exact ⟨c, a, rfl⟩
  exact ((of_takeMonitor s x).symm.trans hmonitor).trans (of_takeMonitor t x)

theorem foldl {α : Type} {f : State → α → State} (hf : ∀ {x y : State} (b : α), x.SameBlocks y → (f x b).SameBlocks (f y b)) (l : List α)
    (h : s.SameBlocks t) : (l.foldl f s).SameBlocks (l.foldl f t) := by
  induction l generalizing s t with
  | nil => exact h
  | cons b l ih => exact ih (hf b h)

/-! ### Expiries (R31, R75, R79) -/

theorem leaseExpiry (h : s.SameBlocks t) (b : Agent) (x : Addr) : (s.leaseExpiry b x).SameBlocks (t.leaseExpiry b x) := by
  obtain ⟨c, a, rfl⟩ := h
  exact takeMonitor ⟨c, a, rfl⟩ _

theorem entitlementExpiry (h : s.SameBlocks t) (i : SlotIx) : (s.entitlementExpiry i).SameBlocks (t.entitlementExpiry i) := by
  obtain ⟨c, a, rfl⟩ := h
  exact takeMonitor ⟨c, a, rfl⟩ _

theorem holdExpiry (h : s.SameBlocks t) (i : SlotIx) : (s.holdExpiry i).SameBlocks (t.holdExpiry i) := by
  obtain ⟨c, a, rfl⟩ := h
  exact takeMonitor ⟨c, a, rfl⟩ _

theorem takeRunOuts (h : s.SameBlocks t) : s.takeRunOuts.SameBlocks t.takeRunOuts := by
  obtain ⟨c, a, rfl⟩ := h
  have hleases := foldl (f := fun x (e : TableEntry) => x.leaseExpiry e.agent e.cell) (fun e h => h.leaseExpiry e.agent e.cell)
    (s.monitor.table.filter fun e => e.lease == 0) (s := s) ⟨c, a, rfl⟩
  have hslots := foldl (f := fun x (i : SlotIx) => (x.entitlementExpiry i).holdExpiry i)
    (fun i h => (h.entitlementExpiry i).holdExpiry i) [0, 1, 2, 3] hleases
  unfold State.takeRunOuts
  exact hslots

/-! ### Retirement (R121 to R125) -/

theorem retire (h : s.SameBlocks t) : s.retire.SameBlocks t.retire := by
  obtain ⟨c, a, rfl⟩ := h
  exact ⟨c, a, rfl⟩

theorem completeRequest (h : s.SameBlocks t) (o : Owner) (id : Nat) (d : Dir) (k : Cause) (data : List Byte) :
    (s.completeRequest o id d k data).SameBlocks (t.completeRequest o id d k data) := by
  obtain ⟨c, a, rfl⟩ := h
  rw [State.completeRequest_eq, State.completeRequest_eq]
  exact ⟨c, a, rfl⟩

theorem readFailureCleanup (h : s.SameBlocks t) (o : Owner) : (s.readFailureCleanup o).SameBlocks (t.readFailureCleanup o) := by
  obtain ⟨c, a, rfl⟩ := h
  rw [State.readFailureCleanup_eq, State.readFailureCleanup_eq]
  exact ⟨c, a, rfl⟩

theorem endTally (h : s.SameBlocks t) (i : SlotIx) (x : Tally) (k : Cause) (r : Record) :
    (s.endTally i x k r).SameBlocks (t.endTally i x k r) := by
  have hoffer := h.offer r
  obtain ⟨c, a, rfl⟩ := h
  rw [State.endTally_eq, State.endTally_eq]
  obtain ⟨c', a', h'⟩ := hoffer
  rw [h']
  exact ⟨c', a', rfl⟩

theorem failTally (h : s.SameBlocks t) (i : SlotIx) (k : Cause) : (s.failTally i k).SameBlocks (t.failTally i k) := by
  obtain ⟨c, a, rfl⟩ := h
  cases hslot : s.tally.slots.get i with
  | none => simp only [State.failTally, hslot]; exact ⟨c, a, rfl⟩
  | some x => simp only [State.failTally, hslot]; exact endTally ⟨c, a, rfl⟩ _ _ _ _

theorem finishTally (h : s.SameBlocks t) (i : SlotIx) : (s.finishTally i).SameBlocks (t.finishTally i) := by
  obtain ⟨c, a, rfl⟩ := h
  cases hslot : s.tally.slots.get i with
  | none => simp only [State.finishTally, hslot]; exact ⟨c, a, rfl⟩
  | some x => simp only [State.finishTally, hslot]; exact endTally ⟨c, a, rfl⟩ _ _ _ _

theorem readHalfDone (h : s.SameBlocks t) (i : SlotIx) (data : BitVec 512) : (s.readHalfDone i data).SameBlocks (t.readHalfDone i data) := by
  obtain ⟨c, a, rfl⟩ := h
  cases hslot : s.tally.slots.get i with
  | none => simp only [State.readHalfDone, hslot]; exact ⟨c, a, rfl⟩
  | some x =>
    simp only [State.readHalfDone, hslot]
    split
    · exact setFlag ⟨c, a, rfl⟩ _
    · exact ⟨c, a, rfl⟩

theorem reloadTrigger (h : s.SameBlocks t) : s.reloadTrigger.SameBlocks t.reloadTrigger := by
  obtain ⟨c, a, rfl⟩ := h
  have hdrained : ({ s with capture := c, attention := a } : State).drained = s.drained := rfl
  cases hpart : s.loader.part with
  | running =>
    simp only [State.reloadTrigger, hpart, hdrained]
    split <;> exact ⟨c, a, rfl⟩
  | loading | draining | fetching =>
    simp only [State.reloadTrigger, hpart]
    exact ⟨c, a, rfl⟩

theorem run (h : s.SameBlocks t) : s.run.SameBlocks t.run := by
  obtain ⟨c, a, rfl⟩ := h
  exact ⟨c, a, rfl⟩

theorem endRead (h : s.SameBlocks t) (block : Option Block) : (s.endRead block).SameBlocks (t.endRead block) := by
  obtain ⟨c, a, rfl⟩ := h
  cases hpart : s.loader.part with
  | running | draining =>
    simp only [State.endRead, hpart]
    exact ⟨c, a, rfl⟩
  | loading =>
    cases block with
    | none => simp only [State.endRead, hpart]; exact ((setFlag ⟨c, a, rfl⟩ _).offer _).run
    | some b => simp only [State.endRead, hpart]; exact (offer ⟨c, a, rfl⟩ _).run
  | fetching =>
    cases block with
    | none => simp only [State.endRead, hpart]; exact ((setFlag ⟨c, a, rfl⟩ _).offer _).run
    | some b => simp only [State.endRead, hpart]; exact ((setFlag ⟨c, a, rfl⟩ _).offer _).run

theorem loaderRetired (h : s.SameBlocks t) (f : BlockRead → BlockRead) : (s.loaderRetired f).SameBlocks (t.loaderRetired f) := by
  obtain ⟨c, a, rfl⟩ := h
  cases hreading : s.loader.reading with
  | none => simp only [State.loaderRetired, hreading]; exact ⟨c, a, rfl⟩
  | some b =>
    simp only [State.loaderRetired, hreading]
    split
    · exact ⟨c, a, rfl⟩
    · exact endRead ⟨c, a, rfl⟩ _

theorem okayCompletion (h : s.SameBlocks t) (e : OutEntry) (data : BitVec 512) :
    (s.okayCompletion e data).SameBlocks (t.okayCompletion e data) := by
  cases horigin : e.origin with
  | agentRequest o id d trigger =>
    simp only [State.okayCompletion, horigin]
    cases trigger with
    | false => exact h.completeRequest _ _ _ _ _
    | true => exact (h.completeRequest _ _ _ _ _).reloadTrigger
  | tallyRead o i => simp only [State.okayCompletion, horigin]; exact h.readHalfDone i data
  | tallyWrite o i => simp only [State.okayCompletion, horigin]; exact h.finishTally i
  | loaderRead => simp only [State.okayCompletion, horigin]; exact h.loaderRetired _

theorem failedCompletion (h : s.SameBlocks t) (e : OutEntry) (k : Cause) : (s.failedCompletion e k).SameBlocks (t.failedCompletion e k) := by
  cases horigin : e.origin with
  | agentRequest o id d trigger =>
    have hoffer := (h.completeRequest o id e.tx.dir k []).offer (.ofFault o.agent o.cell o.region k)
    simp only [State.failedCompletion, horigin]
    split
    · exact hoffer.readFailureCleanup o
    · exact hoffer
  | tallyRead o i => simp only [State.failedCompletion, horigin]; exact h.failTally i k
  | tallyWrite o i => simp only [State.failedCompletion, horigin]; exact h.failTally i k
  | loaderRead => simp only [State.failedCompletion, horigin]; exact h.loaderRetired _

theorem retireFailed (h : s.SameBlocks t) (e : OutEntry) (f : CauseFlag) (k : Cause) :
    (s.retireFailed e f k).SameBlocks (t.retireFailed e f k) :=
  (h.retire.setFlag f).failedCompletion e k

theorem memoryTimeout (h : s.SameBlocks t) : s.memoryTimeout.SameBlocks t.memoryTimeout := by
  have hfailed (e : OutEntry) := h.retireFailed e .memTimeout .memTimeout
  obtain ⟨c, a, rfl⟩ := h
  unfold State.memoryTimeout
  dsimp only
  split
  · exact hfailed _
  · exact ⟨c, a, rfl⟩

/-! ### The grant (R112 to R114) -/

theorem leaveQueue (h : s.SameBlocks t) (g : Grant) : (s.leaveQueue g).SameBlocks (t.leaveQueue g) := by
  obtain ⟨c, a, rfl⟩ := h
  exact ⟨c, a, rfl⟩

theorem respond (h : s.SameBlocks t) (p : PortIx) (id : Nat) (k : Cause) (data : List Byte) :
    (s.respond p id k data).SameBlocks (t.respond p id k data) := by
  obtain ⟨c, a, rfl⟩ := h
  exact ⟨c, a, rfl⟩

theorem issueWriteHalves (h : s.SameBlocks t) : s.issueWriteHalves.SameBlocks t.issueWriteHalves := by
  obtain ⟨c, a, rfl⟩ := h
  refine ⟨c, a, (s.issueWriteHalves_with s.ports s.pointer s.monitor c a).trans ?_⟩
  rw [State.mk.injEq]
  simp

theorem issueRequest (h : s.SameBlocks t) (g : Grant) : (s.issueRequest g).SameBlocks (t.issueRequest g) := by
  obtain ⟨c, a, hissue⟩ := h.issueWriteHalves
  unfold State.issueRequest
  rw [hissue]
  exact ⟨c, a, rfl⟩

theorem takeTally (h : s.SameBlocks t) (g : Grant) (i : SlotIx) : (s.takeTally g i).SameBlocks (t.takeTally g i) := by
  obtain ⟨c, a, hissue⟩ := h.issueWriteHalves
  unfold State.takeTally
  rw [hissue]
  exact ⟨c, a, rfl⟩

theorem takeGuardedRead (h : s.SameBlocks t) (g : Grant) : (s.takeGuardedRead g).SameBlocks (t.takeGuardedRead g) := by
  have htake (x : MonitorStep) := (h.takeMonitor x).issueRequest g
  obtain ⟨c, a, rfl⟩ := h
  exact htake _

theorem takeGuardedWrite (h : s.SameBlocks t) (g : Grant) : (s.takeGuardedWrite g).SameBlocks (t.takeGuardedWrite g) := by
  have hrefuse (k : Cause) (x : MonitorStep) := (h.respond g.port g.acc.id k []).takeMonitor x
  have hcommit (x : MonitorStep) := (h.takeMonitor x).issueRequest g
  obtain ⟨c, a, rfl⟩ := h
  have hstep : ({ s with capture := c, attention := a } : State).writeStep g = s.writeStep g := rfl
  unfold State.takeGuardedWrite
  rw [hstep]
  cases (s.writeStep g).refusal with
  | some k => exact hrefuse k _
  | none => exact hcommit _

theorem grantEffects (h : s.SameBlocks t) (g : Grant) : (s.grantEffects g).SameBlocks (t.grantEffects g) := by
  cases hdisp : g.cls.disp with
  | answer k =>
    have htake (x : MonitorStep) := (h.respond g.port g.acc.id k []).takeMonitor x
    obtain ⟨c, a, rfl⟩ := h
    simp only [State.grantEffects, hdisp]
    exact htake _
  | forward | tallyRead => simp only [State.grantEffects, hdisp]; exact h.issueRequest g
  | guardedRead => simp only [State.grantEffects, hdisp]; exact h.takeRunOuts.takeGuardedRead g
  | guardedWrite => simp only [State.grantEffects, hdisp]; exact h.takeRunOuts.takeGuardedWrite g
  | tallyWrite =>
    have htally (i : SlotIx) := h.takeTally g i
    obtain ⟨c, a, rfl⟩ := h
    simp only [State.grantEffects, hdisp]
    split
    · exact htally _
    · exact ⟨c, a, rfl⟩

/-! ### Resets and the tick (R108, R146) -/

theorem portReset (h : s.SameBlocks t) (p : PortIx) : (s.portReset p).SameBlocks (t.portReset p) := by
  obtain ⟨c, a, rfl⟩ := h
  exact (takeMonitor ⟨c, a, rfl⟩ _).offer _

theorem countDown (h : s.SameBlocks t) : s.countDown.SameBlocks t.countDown := by
  obtain ⟨c, a, rfl⟩ := h
  exact ⟨_, a, rfl⟩

end State.SameBlocks

/-- The command does the same to every block but the two, from states that differ in the two alone. -/
def SameEffects (c : Instr) (s s' : State) : Prop :=
  ∃ t cap att, exec c s = .next t ∧ exec c s' = .next { t with capture := cap, attention := att }

theorem SameEffects.of_sameBlocks {c : Instr} {s s' t t' : State} (hs : exec c s = .next t) (hs' : exec c s' = .next t')
    (h : t.SameBlocks t') : SameEffects c s s' := by
  obtain ⟨cap, att, rfl⟩ := h
  exact ⟨t, cap, att, hs, hs'⟩

/-- Every command that does not come over the link. -/
theorem sameEffects_of_sameBlocks {c : Instr} (hlink : c.overLink = false) {s s' : State} (h : s.SameBlocks s') : SameEffects c s s' := by
  have hsame := h
  obtain ⟨cap, att, rfl⟩ := h
  cases c with
  | powerOnReset pbase ownp prst csLow => exact .of_sameBlocks rfl rfl (.refl _)
  | portReset p =>
    by_cases hheld : (s.ports.get p).resetAsserted = true
    · exact .of_sameBlocks (if_pos hheld) (if_pos hheld) hsame
    · exact .of_sameBlocks (if_neg hheld) (if_neg hheld) (hsame.portReset p)
  | prstDeasserted p => exact .of_sameBlocks rfl rfl ⟨cap, att, rfl⟩
  | acceptance p r =>
    by_cases haccepts : (s.ports.get p).accepts = true
    · exact .of_sameBlocks (if_pos haccepts) (if_pos haccepts) ⟨cap, att, rfl⟩
    · exact .of_sameBlocks (if_neg haccepts) (if_neg haccepts) hsame
  | admission =>
    have hwinner : ({ s with capture := cap, attention := att } : State).winner = s.winner := rfl
    cases hgrant : s.winner with
    | none =>
      have hidle {x : State} (hx : x.winner = none) : exec .admission x = .next x := by
        change execAdmission x = _
        rw [execAdmission, hx]
      exact .of_sameBlocks (hidle hgrant) (hidle (hwinner.trans hgrant)) hsame
    | some g =>
      exact .of_sameBlocks (exec_admission hgrant) (exec_admission (hwinner.trans hgrant)) ((hsame.leaveQueue g).grantEffects g)
  | writeHalfIssue =>
    refine .of_sameBlocks rfl rfl ⟨cap, att, (s.issueWriteHalf_with s.ports s.pointer s.monitor cap att).trans ?_⟩
    rw [State.mk.injEq]
    simp
  | loaderReadIssue =>
    obtain ⟨-, -, -, -, -, hissue, hidle⟩ := issuesAndIdleMemoryPort
    by_cases hasks : ∃ b addr rest, s.loader.reading = some b ∧ b.asked = addr :: rest
    · obtain ⟨b, addr, rest, hb, hasked⟩ := hasks
      have hs := hissue s b addr rest hb hasked
      have hs' := hissue { s with capture := cap, attention := att } b addr rest hb hasked
      by_cases hplace : s.placesUsed < 16
      · exact .of_sameBlocks (hs.trans (if_pos hplace)) (hs'.trans (if_pos hplace)) ⟨cap, att, rfl⟩
      · exact .of_sameBlocks (hs.trans (if_neg hplace)) (hs'.trans (if_neg hplace)) hsame
    · have hnone (b : BlockRead) (hb : s.loader.reading = some b) : b.asked = [] := by
        cases hasked : b.asked with
        | nil => rfl
        | cons addr rest => exact absurd ⟨b, addr, rest, hb, hasked⟩ hasks
      exact .of_sameBlocks (hidle s hnone) (hidle { s with capture := cap, attention := att } hnone) hsame
  | memoryResponse tag okay data =>
    cases hout : s.memory.outstanding with
    | nil =>
      have hnone (e : OutEntry) (he : s.memory.outstanding.head? = some e) : e.tx.tag ≠ tag := by simp [hout] at he
      exact .of_sameBlocks (exec_memoryResponse_discarded hnone okay data)
        (exec_memoryResponse_discarded (s := { s with capture := cap, attention := att }) hnone okay data) hsame
    | cons e rest =>
      by_cases htag : e.tx.tag = tag
      · subst htag
        refine .of_sameBlocks (exec_memoryResponse hout okay data)
          (exec_memoryResponse (s := { s with capture := cap, attention := att }) hout okay data) ?_
        cases okay with
        | false => exact hsame.retireFailed e _ _
        | true => exact hsame.retire.okayCompletion e data
      · have hother (f : OutEntry) (hf : s.memory.outstanding.head? = some f) : f.tx.tag ≠ tag := by
          rw [hout, List.head?_cons, Option.some.injEq] at hf
          exact hf ▸ htag
        exact .of_sameBlocks (exec_memoryResponse_discarded hother okay data)
          (exec_memoryResponse_discarded (s := { s with capture := cap, attention := att }) hother okay data) hsame
  | memoryTimeout => exact .of_sameBlocks rfl rfl hsame.memoryTimeout
  | fetching =>
    by_cases hready : s.loader.part = .draining ∧ s.drained = true
    · exact .of_sameBlocks (if_pos hready) (if_pos hready) ⟨cap, att, rfl⟩
    · exact .of_sameBlocks (if_neg hready) (if_neg hready) hsame
  | responseDeparture p => exact .of_sameBlocks rfl rfl ⟨cap, att, rfl⟩
  | timeBaseTick => exact .of_sameBlocks rfl rfl hsame.takeRunOuts.memoryTimeout.countDown
  | leaseExpiry a x => exact .of_sameBlocks rfl rfl (hsame.leaseExpiry a x)
  | entitlementExpiry i => exact .of_sameBlocks rfl rfl (hsame.entitlementExpiry i)
  | holdLimitExpiry i => exact .of_sameBlocks rfl rfl (hsame.holdExpiry i)
  | status | causes | causesCompletion | setmask | agent | agentClear | reservations | holds | region | captureSetup | captureArm
  | captureStop | captureRead | monitorReset | halt | resume | badcmd | frameCutShort | frameCutShortAfterPointOfEffect => cases hlink

/-- Settles O51: each operation keeps the agreement of two states in all other blocks. -/
theorem captureTakesNoPart : Obligations.CaptureTakesNoPart := by
  unfold Obligations.CaptureTakesNoPart
  intro c s cap att hlink
  exact sameEffects_of_sameBlocks hlink ⟨cap, att, rfl⟩

end Sys2Proof.Machine
end
